-- ==== Sys2Proof/Word.lean ====
section
/-! DEFINITION. The data words of the block: bytes, 32-bit words, pixels and cache slots (00_scope.md
rules R9 and R11, 20_memory.md rule R51). Arithmetic on them stands in Machine/Operands.lean. -/

namespace Sys2Proof

/-- One byte of a stream, one colour channel (R9, R11). -/
abbrev Byte := BitVec 8

/-- A 32-bit port or register word (R8). -/
abbrev Word := BitVec 32

/-- A cache slot index, 0..63: "Every value 0..63 is a valid slot" (R51). -/
abbrev Slot := Fin 64

/-- R11: a pixel is a record of four 8-bit channels; equality is equality of all four. -/
structure Pixel where
  r : Byte
  g : Byte
  b : Byte
  a : Byte
deriving DecidableEq, Repr

end Sys2Proof
end

