-- ==== Sys2Proof/Config.lean ====
section
/-! DEFINITION. The fixed parameters of the block, 00_scope.md rule R7. The spec leaves none of them to the
implementation, so none is a free value. -/

namespace Sys2Proof.Config

/-- `PIXEL_CEILING`: an image of this many pixels or more is refused (R7, R203; log entry 4). -/
def pixelCeiling : Nat := 400000000

/-- `RUN_MAX`: the largest count of one RUN op (R7, R79). -/
def runMax : Nat := 62

/-- `TAG_RGB` (R78; log entry 1). -/
def tagRgb : Byte := 0xFE

/-- `TAG_RGBA` (R78; log entry 1). -/
def tagRgba : Byte := 0xFF

/-- `PIXEL_INIT`: opaque black, the value of `prev` at START and at reset (R7, R25). -/
def pixelInit : Pixel := ⟨0, 0, 0, 255⟩

/-- `CACHE_INIT`: the value of every cache slot at START and at reset (R7, R27). -/
def cacheInit : Pixel := ⟨0, 0, 0, 0⟩

/-- The magic "qoif", in string order (R84; log entry 2). -/
def magic : List Byte := [0x71, 0x6F, 0x69, 0x66]

/-- The end marker of every stream (R85). -/
def terminator : List Byte := [0x00, 0x00, 0x00, 0x00, 0x00, 0x00, 0x00, 0x01]

/-- `HEADER_LEN` (R7). -/
def headerLen : Nat := 14

end Sys2Proof.Config
end

