-- ==== Sys2Proof/Syntax.lean ====
section
/-! DEFINITION. The six ops, the block's instructions (00_scope.md rule R15: "In this spec an op is the block's
'instruction'"), one constructor per row of spec/opcode_table.json. Operands are the quantities of
30_encoding.md rule R82, not the biased fields. -/

namespace Sys2Proof

inductive Instr where
  /-- INDEX (R72, R144): a back-reference to a cache slot. -/
  | index (slot : Slot)
  /-- DIFF (R73, R147): three signed channel deltas, each in [-2, 1]. -/
  | diff (dr dg db : Int)
  /-- LUMA (R74, R148): `dg` in [-32, 31]; `drg = dr - dg` and `dbg = db - dg` in [-8, 7]. -/
  | luma (dg drg dbg : Int)
  /-- RUN (R75, R143): `n` repeats of the previous pixel, 1..62. -/
  | run (n : Nat)
  /-- RGB literal (R76, R149). -/
  | rgb (r g b : Byte)
  /-- RGBA literal (R77, R146). -/
  | rgba (r g b a : Byte)
deriving DecidableEq, Repr

end Sys2Proof
end

