-- ==== Sys2Proof/WellFormed.lean ====
section
/-! DEFINITION. When a term of `Instr` is an op of the format: every quantity lies in the range
30_encoding.md rule R82 gives its field. -/

namespace Sys2Proof

/-- `lo ≤ v ≤ hi`, both ends included (R136: "Both bounds of each range are included"). -/
def inRange (lo hi v : Int) : Bool := decide (lo ≤ v) && decide (v ≤ hi)

/-- `DIFF_RANGE` (R7, R82). -/
def inDiffRange (v : Int) : Bool := inRange (-2) 1 v

/-- `LUMA_DG_RANGE` (R7, R82). -/
def inLumaGreenRange (v : Int) : Bool := inRange (-32) 31 v

/-- `LUMA_DRG_RANGE` (R7, R82). -/
def inLumaRelRange (v : Int) : Bool := inRange (-8) 7 v

/-- R82: each field holds its quantity. An INDEX slot and the literals' raw bytes are in range by type. -/
def Instr.wellFormed : Instr → Bool
  | .index _ => true
  | .diff dr dg db => inDiffRange dr && inDiffRange dg && inDiffRange db
  | .luma dg drg dbg => inLumaGreenRange dg && inLumaRelRange drg && inLumaRelRange dbg
  | .run n => decide (1 ≤ n) && decide (n ≤ Config.runMax)
  | .rgb _ _ _ => true
  | .rgba _ _ _ _ => true

end Sys2Proof
end

