-- ==== Sys2Proof/Decode.lean ====
section
/-! DEFINITION. Reading one op from the front of a byte stream (30_encoding.md rules R70, R71 and R87), and, after it,
writing an op as bytes (rules R72 to R77). The block only writes; the reader serves the host's table check and the
decoder contract of 45_decoder_contract.md. -/

namespace Sys2Proof

/-- Why no op can be read. Every byte value is the tag of exactly one op (R80), so there is no illegal tag. DESIGN CHOICE
(log entry 14): the spec gives no behaviour for such bytes (R185, 93 I10); the two refusals and their names are the model's. -/
inductive DecodeError where
  /-- The stream is empty: there is no tag byte. -/
  | noTag
  /-- The stream ends inside the payload of the op whose tag is `tag`. -/
  | shortPayload (tag : Byte)
deriving DecidableEq, Repr

/-- `t[lo+len-1 : lo]` as an unsigned number (R9). -/
def bitField (t : Byte) (lo len : Nat) : Nat := (t.extractLsb' lo len).toNat

/-- R70, R71: the first op of a byte stream and the bytes after it. The full-byte tags come before the
two-bit families. -/
def decode : List Byte → Except DecodeError (Instr × List Byte)
  | [] => .error .noTag
  | t :: rest =>
    if t = Config.tagRgb then
      match rest with
      | r :: g :: b :: rest' => .ok (.rgb r g b, rest')
      | _ => .error (.shortPayload t)
    else if t = Config.tagRgba then
      match rest with
      | r :: g :: b :: a :: rest' => .ok (.rgba r g b a, rest')
      | _ => .error (.shortPayload t)
    else if bitField t 6 2 = 0 then
      .ok (.index (Fin.ofNat 64 (bitField t 0 6)), rest)
    else if bitField t 6 2 = 1 then
      .ok (.diff (bitField t 4 2 - 2) (bitField t 2 2 - 2) (bitField t 0 2 - 2), rest)
    else if bitField t 6 2 = 2 then
      match rest with
      | u :: rest' => .ok (.luma (bitField t 0 6 - 32) (bitField u 4 4 - 8) (bitField u 0 4 - 8), rest')
      | _ => .error (.shortPayload t)
    else
      .ok (.run (bitField t 0 6 + 1), rest)

/-- R87: how many payload bytes follow a tag byte; the tag alone fixes it. -/
def payloadLength (t : Byte) : Nat :=
  if t = Config.tagRgb then 3
  else if t = Config.tagRgba then 4
  else if bitField t 6 2 = 2 then 1
  else 0

/-- R72 to R77: the bytes of an op, tag byte first. Each field is the quantity plus its bias (R82). DESIGN CHOICE (log entry 8):
an operand outside the ranges of R82 has no byte in the spec; here its field is truncated to its width, but RUN 0, whose
field is taken as 0, so that its byte is that of RUN 1. -/
def encode : Instr → List Byte
  | .index slot => [0b00#2 ++ BitVec.ofNat 6 slot.val]
  | .diff dr dg db =>
    [0b01#2 ++ BitVec.ofInt 2 (dr + 2) ++ BitVec.ofInt 2 (dg + 2) ++ BitVec.ofInt 2 (db + 2)]
  | .luma dg drg dbg =>
    [0b10#2 ++ BitVec.ofInt 6 (dg + 32), BitVec.ofInt 4 (drg + 8) ++ BitVec.ofInt 4 (dbg + 8)]
  | .run n => [0b11#2 ++ BitVec.ofNat 6 (n - 1)]
  | .rgb r g b => [Config.tagRgb, r, g, b]
  | .rgba r g b a => [Config.tagRgba, r, g, b, a]

/-- The `len` low bytes of a number, the least significant byte first: how spec/opcode_table.json numbers the bytes
of an op, its first byte holding bits 7..0. -/
def bytesOfNumber (w : Nat) : Nat → List Byte
  | 0 => []
  | len + 1 => BitVec.ofNat 8 w :: bytesOfNumber (w / 256) len

/-- The longest op, an RGBA literal, in bytes (R71). -/
def longestOp : Nat := 5

/-- The bytes of the op whose bits are the low `nbits` bits of `w`, with zeros above, up to the longest op. DESIGN CHOICE (log
entry 17), for a bit count that is not that of the op, of which the spec says nothing: every missing bit is zero, of the
payload (the 8-bit word FE is RGB 0, 0, 0) and of the tag (0 bits are INDEX 0), and bits past the longest op are dropped. -/
def tableWordBytes (nbits w : Nat) : List Byte := bytesOfNumber (w % 2 ^ nbits) longestOp

/-- What the decoder reads from an op whose bits are `w`, numbered as spec/opcode_table.json numbers them. DESIGN CHOICE (log
entry 17): bits past the op that is read are dropped, so the 16-bit word FF00 is INDEX 0. -/
def decodeTableWord (nbits w : Nat) : Option Instr :=
  match decode (tableWordBytes nbits w) with
  | .ok (i, _) => some i
  | .error _ => none

end Sys2Proof
end

