-- ==== Sys2Proof/Machine/State.lean ====
section
/-! DEFINITION. The state of the block (10_state.md rule R20), its port values, its commands, and the state after reset.
Three things stand here that rule R20 does not list, because a step of the model takes no argument: `inputs`, the values
the host will drive on the input ports (40_control.md rule R101); `outPending`, the emitted bytes the host has not taken
yet, which rules R55, R102 and R225 speak of; both are logged (entries 5 and 6). -/

namespace Sys2Proof.Machine

/-- R30: the control state. -/
inductive Phase where
  | idle
  | running
  | done
  | error
deriving DecidableEq, Repr

/-- R31: why the last START failed. The codes 0 to 3 are given by `ErrCode.toBits`. -/
inductive ErrCode where
  | none
  | invalidDimensions
  | malformedLength
  | invalidFormat
deriving DecidableEq, Repr

/-- R103: the five operands of START, the image description and the declared length of the pixel buffer. -/
structure StartArgs where
  width : Word
  height : Word
  channels : Byte
  colorspace : Byte
  inLen : BitVec 64
deriving DecidableEq, Repr

/-- R101: the values on the input ports in one step. -/
structure Ports where
  rst : Bool
  start : Bool
  cfg : StartArgs
  pixValid : Bool
  pixData : Word
  outReady : Bool
deriving DecidableEq, Repr

/-- R100: the three commands. -/
inductive Command where
  | reset
  | start (args : StartArgs)
  | pixel (p : Pixel)
deriving DecidableEq, Repr

/-- R20: everything the block holds, with the model's own `outPending` and `inputs` at the end. -/
structure State where
  phase : Phase
  errCode : ErrCode
  cfgWidth : Word
  cfgHeight : Word
  cfgChannels : Byte
  cfgColorspace : Byte
  cfgInLen : BitVec 64
  pos : Word
  prev : Pixel
  run : BitVec 6
  cache : Vector Pixel 64
  out : List Byte
  outCount : Word
  /-- The emitted bytes that still wait on the output port, oldest first (R55, R102; log entry 6). -/
  outPending : List Byte
  /-- What the host drives on the input ports, this step first (R20: "parameters of a run"; log entry 5). -/
  inputs : List Ports
deriving DecidableEq, Repr

/-- The faults of a step: none. "Once START has succeeded, no PIXEL step can fail" (R207), a failed START is a next
state in phase ERROR (R202), and no other rule stops the block. -/
inductive Fault where
deriving DecidableEq, Repr

/-- The refusals of a step. -/
inductive Refusal where
  /-- An op the model gives no meaning, rejected by name in `exec`; no arm is refused in this model. Safe: nothing is
  claimed about such an op. -/
  | notModelled (mnemonic : String)
deriving DecidableEq, Repr

/-- The cache with every slot at `CACHE_INIT` (R27). -/
def emptyCache : Vector Pixel 64 := Vector.replicate 64 Config.cacheInit

/-- R34 (column "at reset") and R225. The host offers nothing yet. -/
def State.reset : State where
  phase := .idle
  errCode := .none
  cfgWidth := 0
  cfgHeight := 0
  cfgChannels := 0
  cfgColorspace := 0
  cfgInLen := 0
  pos := 0
  prev := Config.pixelInit
  run := 0
  cache := emptyCache
  out := []
  outCount := 0
  outPending := []
  inputs := []

end Sys2Proof.Machine
end

