-- ==== Sys2Proof/Machine/Operands.lean ====
section
/-! DEFINITION. The datapath functions: the pixel word, byte order, the colour hash, the channel deltas and the
normalisation of the input pixel (00_scope.md R11, 20_memory.md R54 and R57, 41_op_selector.md R130 to R135). -/

namespace Sys2Proof

/-- R11: `pack(p) = {r, g, b, a}`, with `r` in bits 31:24. -/
def Pixel.pack (p : Pixel) : Word := p.r ++ p.g ++ p.b ++ p.a

/-- R101: the pixel carried by a `pix_data` word. -/
def Pixel.ofWord (w : Word) : Pixel :=
  ⟨w.extractLsb' 24 8, w.extractLsb' 16 8, w.extractLsb' 8 8, w.extractLsb' 0 8⟩

/-- R57: a 32-bit integer as four bytes, the most significant first. -/
def bigEndian (w : Word) : List Byte :=
  [w.extractLsb' 24 8, w.extractLsb' 16 8, w.extractLsb' 8 8, w.extractLsb' 0 8]

/-- The sum of R130 before it is reduced, in exact integers. -/
def hashSum (p : Pixel) : Nat := 3 * p.r.toNat + 5 * p.g.toNat + 7 * p.b.toNat + 11 * p.a.toNat

/-- R130: the cache slot of a colour. -/
def hash6 (p : Pixel) : Slot := ⟨hashSum p % 64, Nat.mod_lt _ (by decide)⟩

/-- R133: in 3-channel mode the alpha lane of the port is replaced by 255. -/
def normalise (channels : Byte) (p : Pixel) : Pixel := if channels = 3 then { p with a := 255 } else p

/-- R134: a channel delta, an exact signed integer. -/
def delta (new old : Byte) : Int := (new.toNat : Int) - (old.toNat : Int)

/-- R134: `dr = px.r - prev.r`. -/
def deltaRed (px prev : Pixel) : Int := delta px.r prev.r

/-- R134: `dg = px.g - prev.g`. -/
def deltaGreen (px prev : Pixel) : Int := delta px.g prev.g

/-- R134: `db = px.b - prev.b`. -/
def deltaBlue (px prev : Pixel) : Int := delta px.b prev.b

/-- R135: `dr_g = dr - dg`. -/
def relRed (px prev : Pixel) : Int := deltaRed px prev - deltaGreen px prev

/-- R135: `db_g = db - dg`. -/
def relBlue (px prev : Pixel) : Int := deltaBlue px prev - deltaGreen px prev

/-- The pixel whose deltas from `prev` are `dr`, `dg`, `db`, with the alpha of `prev`: R134 read from right to left. A sum
that leaves 0..255 is taken modulo 256 (92 D23; log entry 7); the selector never reaches such an op (R191). -/
def Pixel.addDeltas (prev : Pixel) (dr dg db : Int) : Pixel :=
  ⟨prev.r + BitVec.ofInt 8 dr, prev.g + BitVec.ofInt 8 dg, prev.b + BitVec.ofInt 8 db, prev.a⟩

/-- R54 for 3 channels: groups of r, g, b, with alpha 255. Bytes that make no whole group end the sequence. -/
def unpackRgb : List Byte → List Pixel
  | r :: g :: b :: rest => ⟨r, g, b, 255⟩ :: unpackRgb rest
  | _ => []

/-- R54 for 4 channels: groups of r, g, b, a. -/
def unpackRgba : List Byte → List Pixel
  | r :: g :: b :: a :: rest => ⟨r, g, b, a⟩ :: unpackRgba rest
  | _ => []

/-- R54: `unpack(buf, ch)`, the host's front end from buffer bytes to port pixels. The rule requires a buffer of whole groups
and a legal `ch`; DESIGN CHOICE (log entry 16): any other `ch` is read as 3, and bytes that make no whole group are left
out. -/
def unpackBuffer (buf : List Byte) (channels : Byte) : List Pixel :=
  if channels = 4 then unpackRgba buf else unpackRgb buf

namespace Machine

/-- R31, R201: the number of an error code. -/
def ErrCode.toBits : ErrCode → BitVec 2
  | .none => 0
  | .invalidDimensions => 1
  | .malformedLength => 2
  | .invalidFormat => 3

end Machine

end Sys2Proof
end

