-- ==== Sys2Proof/Machine/Ops.lean ====
section
/-! DEFINITION. The named operations over the state that every meaning and every command is written with: `emit`, the cache
port, the previous-pixel register, the configuration latches, raising an error, and one beat of the ports. -/

namespace Sys2Proof.Machine

/-- The outcome of one step of this block. -/
abbrev Result := Host.Outcome State Fault Refusal

/-- Sequencing: the second part runs on the state the first part leaves (R13). -/
def andThen (o : Result) (f : State → Result) : Result :=
  match o with
  | .next s => f s
  | .fault r => .fault r
  | .refused r => .refused r

/-- R12, R28, R55: `emit` appends to `out`; the bytes then wait on the output port until the host takes them. -/
def State.emit (s : State) (bytes : List Byte) : State :=
  { s with
    out := s.out ++ bytes
    outCount := s.outCount + BitVec.ofNat 32 bytes.length
    outPending := s.outPending ++ bytes }

/-- R52: the cache read port. -/
def State.cacheAt (s : State) (slot : Slot) : Pixel := s.cache[slot.val]

/-- R52: the cache write port, all 32 bits of one slot. -/
def State.cacheWrite (s : State) (slot : Slot) (p : Pixel) : State :=
  { s with cache := s.cache.set slot.val p }

/-- R152: `prev <- px`. -/
def State.setPrev (s : State) (p : Pixel) : State := { s with prev := p }

/-- `run <- n`. -/
def State.setRun (s : State) (n : BitVec 6) : State := { s with run := n }

/-- R145, R152: what DIFF, LUMA, RGB and RGBA share. The pixel missed the cache, so it is written to its slot; the op's
bytes are emitted; then `prev <- px`. -/
def State.encodeMissed (s : State) (px : Pixel) (i : Instr) : State :=
  ((s.cacheWrite (hash6 px) px).emit (encode i)).setPrev px

/-- R105: an accepted START latches its five operands, whatever validation says. -/
def State.latch (s : State) (a : StartArgs) : State :=
  { s with
    cfgWidth := a.width
    cfgHeight := a.height
    cfgChannels := a.channels
    cfgColorspace := a.colorspace
    cfgInLen := a.inLen }

/-- R105: an accepted START clears `out` and `out_count`. Bytes that still wait on the port stay there: START "discards
nothing the host has not already taken" (R110). -/
def State.clearOut (s : State) : State := { s with out := [], outCount := 0 }

/-- R202: `raise Error(code)`, the block's one way to take an error. It records the code and enters ERROR; it saves no
address and goes to no handler (R200). There is no return beside it: ERROR is left by START or RESET alone (R209). -/
def State.raiseError (s : State) (code : ErrCode) : State := { s with errCode := code, phase := .error }

/-- R108: the running state at the start of an encode. -/
def State.initRunning (s : State) : State :=
  { s with prev := Config.pixelInit, run := 0, pos := 0, errCode := .none, cache := emptyCache }

/-- `phase <- p`. -/
def State.setPhase (s : State) (p : Phase) : State := { s with phase := p }

/-- R112: `pos <- pos + 1`. -/
def State.advancePos (s : State) : State := { s with pos := s.pos + 1 }

/-- The levels of an input interface on which the host asserts nothing (log entry 5). -/
def Ports.quiet : Ports where
  rst := false
  start := false
  cfg := ⟨0, 0, 0, 0, 0⟩
  pixValid := false
  pixData := 0
  outReady := false

/-- The port values of this step; when the host has nothing more to drive, it asserts nothing. -/
def State.ports (s : State) : Ports := s.inputs.headD Ports.quiet

/-- R32: status outputs, functions of the state. -/
def State.busy (s : State) : Bool := s.phase = .running

/-- R32. -/
def State.isDone (s : State) : Bool := s.phase = .done

/-- R32. -/
def State.isError (s : State) : Bool := s.phase = .error

/-- R31, R101: the `err_code` output. -/
def State.errCodePort (s : State) : BitVec 2 := s.errCode.toBits

/-- R101: `stat_width`. -/
def State.statWidth (s : State) : Word := s.cfgWidth

/-- R101: `stat_height`. -/
def State.statHeight (s : State) : Word := s.cfgHeight

/-- R101: `out_valid`. -/
def State.outValid (s : State) : Bool := !s.outPending.isEmpty

/-- R101: `out_byte`, the byte offered while `out_valid` is high; the spec states no value otherwise. -/
def State.outByte (s : State) : Option Byte := s.outPending.head?

/-- R102: `pix_ready` is high exactly when RUNNING and every byte emitted so far has been taken. -/
def State.pixReady (s : State) : Bool := s.busy && s.outPending.isEmpty

/-- R104: START is accepted in every phase but RUNNING. -/
def State.startReady (s : State) : Bool := !s.busy

/-- R55: the byte the host takes in this step, if `out_valid` and `out_ready` are both high. -/
def State.takenByte (s : State) : Option Byte := if s.ports.outReady then s.outByte else none

/-- One beat of the ports: the host takes the offered byte if it is ready (R55, R59), and its next port values come up. -/
def State.beat (s : State) : State :=
  { s with
    outPending := if s.ports.outReady then s.outPending.tail else s.outPending
    inputs := s.inputs.tail }

end Sys2Proof.Machine
end

