-- ==== Sys2Proof/Machine/Flags.lean ====
section
/-! DEFINITION. The condition signals of a PIXEL step (10_state.md rule R29): six functions of the state and the normalised
pixel, recomputed in every step and never stored. -/

namespace Sys2Proof.Machine

/-- R24: `total`, the exact product of the latched width and height; not a register. -/
def State.total (s : State) : Nat := s.cfgWidth.toNat * s.cfgHeight.toNat

/-- R132: `eq_prev`. -/
def State.eqPrev (s : State) (px : Pixel) : Bool := px = s.prev

/-- R139: `is_last`, that is `pos = total - 1` in exact integers. -/
def State.isLast (s : State) : Bool := s.pos.toNat + 1 = s.total

/-- R138: `hit`. -/
def State.hit (s : State) (px : Pixel) : Bool := s.cacheAt (hash6 px) = px

/-- R137: `alpha_eq`. -/
def State.alphaEq (s : State) (px : Pixel) : Bool := px.a = s.prev.a

/-- R136: `diff_ok`. -/
def State.diffOk (s : State) (px : Pixel) : Bool :=
  inDiffRange (deltaRed px s.prev) && inDiffRange (deltaGreen px s.prev) && inDiffRange (deltaBlue px s.prev)

/-- R136: `luma_ok`. -/
def State.lumaOk (s : State) (px : Pixel) : Bool :=
  inLumaGreenRange (deltaGreen px s.prev) && inLumaRelRange (relRed px s.prev) && inLumaRelRange (relBlue px s.prev)

end Sys2Proof.Machine
end

