-- ==== Sys2Proof/Machine/Delta.lean ====
section
/-! DEFINITION. The delta family: DIFF and LUMA (41_op_selector.md rules R147 and R148). The pixel `px` of the rules is the
one whose deltas from `prev` are the op's operands (R134, R135). -/

namespace Sys2Proof.Machine

/-- R147: cache miss update (R145), one DIFF byte, `prev <- px`. -/
def execDiff (dr dg db : Int) (s : State) : Result :=
  .next (s.encodeMissed (s.prev.addDeltas dr dg db) (.diff dr dg db))

/-- R148: cache miss update (R145), two LUMA bytes, `prev <- px`. The operands give `dr = dr_g + dg` and
`db = db_g + dg` (R135). -/
def execLuma (dg drg dbg : Int) (s : State) : Result :=
  .next (s.encodeMissed (s.prev.addDeltas (drg + dg) dg (dbg + dg)) (.luma dg drg dbg))

end Sys2Proof.Machine
end

