-- ==== Sys2Proof/Machine/Index.lean ====
section
/-! DEFINITION. The colour-cache family: the INDEX op (41_op_selector.md rule R144). -/

namespace Sys2Proof.Machine

/-- R144: `emit(0x00 | s)`; the cache "already holds `px`" and is not written; then `prev <- px`, the pixel in the slot. -/
def execIndex (slot : Slot) (s : State) : Result :=
  .next ((s.emit (encode (.index slot))).setPrev (s.cacheAt slot))

end Sys2Proof.Machine
end

