-- ==== Sys2Proof/Machine/Literal.lean ====
section
/-! DEFINITION. The literal family: RGB and RGBA (41_op_selector.md rules R149 and R146). -/

namespace Sys2Proof.Machine

/-- R149: cache miss update (R145), the tag and three raw channels, `prev <- px`. The literal "only runs when alpha is
unchanged", so the pixel has the alpha of `prev`. -/
def execRgb (r g b : Byte) (s : State) : Result := .next (s.encodeMissed ⟨r, g, b, s.prev.a⟩ (.rgb r g b))

/-- R146: cache miss update (R145), the tag and four raw channels, `prev <- px`. -/
def execRgba (r g b a : Byte) (s : State) : Result := .next (s.encodeMissed ⟨r, g, b, a⟩ (.rgba r g b a))

end Sys2Proof.Machine
end

