-- ==== Sys2Proof/Machine/Run.lean ====
section
/-! DEFINITION. The run-length family: the RUN op (41_op_selector.md rule R143). -/

namespace Sys2Proof.Machine

/-- R143: `emit(0xC0 | (n - 1)); run <- 0`. The cache and `prev` are not written (R154, R140).
On a count outside 1..62, which nothing in the spec writes (R81), the byte is the one `encode` chooses (log entry 8). -/
def execRun (n : Nat) (s : State) : Result := .next ((s.emit (encode (.run n))).setRun 0)

end Sys2Proof.Machine
end

