-- ==== Sys2Proof/Machine/Selector.lean ====
section
/-! DEFINITION. The per-pixel op selector (41_op_selector.md rules R140 to R155): the run-length accumulator, the choice among
the five ops of a pixel that is no repeat, and the complete step of rule R151. -/

namespace Sys2Proof.Machine

/-- R140: `run <- run + 1`. -/
def State.accumulate (s : State) : State := s.setRun (s.run + 1)

/-- R142: a pixel that breaks a run first flushes it with a RUN op. -/
def flush (s : State) : Result := if s.run = 0 then .next s else exec (.run s.run.toNat) s

/-- R150 rows 3 to 7, R144 to R149: the op of a pixel that is no repeat of `prev`, the first that applies. -/
def chooseOp (px : Pixel) (s : State) : Instr :=
  if s.hit px then .index (hash6 px)
  else if !s.alphaEq px then .rgba px.r px.g px.b px.a
  else if s.diffOk px then .diff (deltaRed px s.prev) (deltaGreen px s.prev) (deltaBlue px s.prev)
  else if s.lumaOk px then .luma (deltaGreen px s.prev) (relRed px s.prev) (relBlue px s.prev)
  else .rgb px.r px.g px.b

/-- R140, R141: a repeat of `prev` lengthens the run, which is flushed at 62 and at the last pixel. -/
def repeatStep (s : State) : Result :=
  if s.accumulate.run = 62 || s.isLast then exec (.run s.accumulate.run.toNat) s.accumulate
  else .next s.accumulate

/-- R142, R144 to R149: any other pixel flushes a pending run and is then encoded by its own op. -/
def encodeStep (px : Pixel) (s : State) : Result := andThen (flush s) fun t => exec (chooseOp px t) t

/-- R151: the complete op-selector step. -/
def opSelect (p : Pixel) (s : State) : Result :=
  if s.eqPrev (normalise s.cfgChannels p) then repeatStep s else encodeStep (normalise s.cfgChannels p) s

end Sys2Proof.Machine
end

