-- ==== Sys2Proof/Machine/Command.lean ====
section
/-! DEFINITION. The three commands (40_control.md rules R100 to R117, 70_reset_and_hazards.md rule R225), the arbitration of
simultaneous ones (60_exceptions.md rule R212), and the encode of one image (rule R117). -/

namespace Sys2Proof.Machine

/-- R106: the first check that fails, in the order dimensions, format, length; all in exact integers. -/
def validate (a : StartArgs) : ErrCode :=
  let t := a.width.toNat * a.height.toNat
  if a.width = 0 || a.height = 0 || decide (Config.pixelCeiling ≤ t) then .invalidDimensions
  else if !(a.channels = 3 || a.channels = 4) || !(a.colorspace = 0 || a.colorspace = 1) then .invalidFormat
  else if a.inLen.toNat ≠ t * a.channels.toNat then .malformedLength
  else .none

/-- R83, R107: the Header Writer's 14 bytes. -/
def header (a : StartArgs) : List Byte :=
  Config.magic ++ bigEndian a.width ++ bigEndian a.height ++ [a.channels, a.colorspace]

/-- R107 to R109: the rest of a START whose operands are valid. -/
def State.beginEncode (s : State) (a : StartArgs) : State := ((s.initRunning).emit (header a)).setPhase .running

/-- R110: START, whole rule. -/
def start (a : StartArgs) (s : State) : State :=
  if s.phase = .running then s
  else
    match validate a with
    | .none => ((s.latch a).clearOut).beginEncode a
    | code => ((s.latch a).clearOut).raiseError code

/-- R225: RESET sets every state element to its reset value and discards the bytes the host has not taken. What the host
will drive next is no state of the block. -/
def doReset (s : State) : State := { State.reset with inputs := s.inputs }

/-- R112, R113: the end of a PIXEL step, `pos <- pos + 1` and, after the last pixel, the terminator and DONE. -/
def State.finishPixel (s : State) : State :=
  if s.advancePos.pos.toNat = s.total then (s.advancePos.emit Config.terminator).setPhase .done else s.advancePos

/-- R112: PIXEL, whole rule. -/
def pixel (p : Pixel) (s : State) : Result :=
  if s.phase = .running then andThen (opSelect p s) fun t => .next t.finishPixel else .next s

/-- R100: one command. -/
def runCommand (c : Command) (s : State) : Result :=
  match c with
  | .reset => .next (doReset s)
  | .start a => .next (start a s)
  | .pixel p => pixel p s

/-- R100, R212: the command taken in this step: RESET if `rst`, else START if it is accepted, else PIXEL if the handshake
is complete; a command not taken has no effect. -/
def arbitrate (s : State) : Option Command :=
  if s.ports.rst then some .reset
  else if s.ports.start && s.startReady then some (.start s.ports.cfg)
  else if s.ports.pixValid && s.pixReady then some (.pixel (Pixel.ofWord s.ports.pixData))
  else none

/-- One step at the ports: the output handshake of this step, then the command taken, if any. -/
def portStep (s : State) : Result :=
  match arbitrate s with
  | some c => runCommand c s.beat
  | none => .next s.beat

/-- PIXEL commands one after another. -/
def pixels : List Pixel → State → Result
  | [], s => .next s
  | p :: ps, s => andThen (pixel p s) (pixels ps)

/-- R117: the encode of one image, START and then every pixel of the buffer. The buffer's length is what the host
declares. DESIGN CHOICE (log entry 16): for a buffer of 2^64 bytes or more, whose length no value of the 64-bit `cfg_in_len`
is, the spec does not say what START is given; here it is the length modulo 2^64. -/
def encodeRun (width height : Word) (channels colorspace : Byte) (buf : List Byte) (s : State) : Result :=
  pixels (unpackBuffer buf channels) (start ⟨width, height, channels, colorspace, BitVec.ofNat 64 buf.length⟩ s)

end Sys2Proof.Machine
end

