-- ==== Sys2Proof/Machine/Place.lean ====
section
/-! DEFINITION. How a given op is made the next thing the block runs. The block fetches nothing (20_memory.md rule R66): an op
runs because a pixel, and the state the earlier pixels left, select it. So an op is placed by setting that state and
offering that pixel (log entry 9). -/

namespace Sys2Proof.Machine

/-- The host offers `p` on the pixel port and asserts nothing else. -/
def Ports.offer (p : Pixel) : Ports := { Ports.quiet with pixValid := true, pixData := p.pack }

/-- A colour whose slot is `k`: `11 · 35 = 1 (mod 64)`. Its alpha is below 64. -/
def colourOfSlot (k : Slot) : Pixel := ⟨0, 0, 0, BitVec.ofNat 8 (35 * k.val % 64)⟩

/-- A slot content that is not `px`, in a slot where the invariant of R36 allows it. -/
def otherColour (px : Pixel) : Pixel := if px = Config.cacheInit then ⟨5, 5, 5, 255⟩ else Config.cacheInit

/-- RUNNING in a two-pixel RGBA image at the given position, with all output taken, and the pixel `px` on the port. -/
def State.offering (s : State) (position : Word) (px : Pixel) : State :=
  { s with
    phase := .running
    errCode := .none
    cfgWidth := 2
    cfgHeight := 1
    cfgChannels := 4
    cfgColorspace := 0
    cfgInLen := 8
    pos := position
    outPending := []
    inputs := Ports.offer px :: s.inputs }

/-- As `offering` at the first pixel, with no run pending, the previous pixel `old`, and a cache that misses `px`. -/
def State.offeringMiss (s : State) (old px : Pixel) : State :=
  (((s.offering 0 px).setRun 0).setPrev old).cacheWrite (hash6 px) (otherColour px)

/-- The mid grey from which every DIFF and LUMA delta stays in range. -/
def midGrey : Pixel := ⟨128, 128, 128, 255⟩

/-- A state whose next step emits the op `i`. RUN is placed at the last pixel, where a run of any length is flushed. -/
def State.place (s : State) : Instr → State
  | .index slot =>
    (((s.offering 0 (colourOfSlot slot)).setRun 0).setPrev Config.pixelInit).cacheWrite slot (colourOfSlot slot)
  | .diff dr dg db => s.offeringMiss midGrey (midGrey.addDeltas dr dg db)
  | .luma dg drg dbg => s.offeringMiss midGrey (midGrey.addDeltas (drg + dg) dg (dbg + dg))
  | .run n => (s.offering 1 s.prev).setRun (BitVec.ofNat 6 (n - 1))
  | .rgb r g b => s.offeringMiss ⟨r, g + 128, b, 255⟩ ⟨r, g, b, 255⟩
  | .rgba r g b a => s.offeringMiss ⟨r, g, b, a + 1⟩ ⟨r, g, b, a⟩

/-- The op whose bits are `w` is placed; a word the decoder refuses places nothing. -/
def State.placeWord (s : State) (nbits w : Nat) : State :=
  match decodeTableWord nbits w with
  | some i => s.place i
  | none => s

end Sys2Proof.Machine
end

