-- ==== Sys2Proof/Machine/Step.lean ====
section
/-! DEFINITION. One step of the block, and where the host places an op that the next step is to run. -/

namespace Sys2Proof.Machine

/-- R13, R100: one atomic step on the port values of the state. -/
def step (s : State) : Host.Outcome State Fault Refusal := portStep s

/-- The state whose very next step emits the op whose bits are `w` (log entry 9). -/
def State.withFetchWord (s : State) (nbits w : Nat) : State := s.placeWord nbits w

end Sys2Proof.Machine
end

