-- ==== Sys2Proof/Machine/Contract.lean ====
section
/-! DEFINITION. The conformant decoder of 45_decoder_contract.md, an EXTERNAL unit: no step of the block calls it. It is here
so that the round trip of 42_terminator_and_sizing.md rule R180 can be stated. For a byte sequence the block did not
produce it may answer `none` (R185, 93 I10). -/

namespace Sys2Proof.Machine

/-- R187: the decoder's state; `n` is the number of pixels produced so far. -/
structure Decoder where
  prev : Pixel
  cache : Vector Pixel 64
  pixels : List Pixel
deriving DecidableEq, Repr

/-- R187: the decoder at the start of the op stream. -/
def Decoder.init : Decoder := ⟨Config.pixelInit, emptyCache, []⟩

/-- R188: `store(px)`. -/
def Decoder.store (d : Decoder) (px : Pixel) : Decoder := { d with cache := d.cache.set (hash6 px).val px }

/-- R188: `out1(px)`, `n` times. -/
def Decoder.produce (d : Decoder) (n : Nat) (px : Pixel) : Decoder :=
  { d with prev := px, pixels := d.pixels ++ List.replicate n px }

/-- R188, R193, R194: the pixel an op stands for. -/
def Decoder.pixelOf (d : Decoder) : Instr → Pixel
  | .index slot => d.cache[slot.val]
  | .diff dr dg db => d.prev.addDeltas dr dg db
  | .luma dg drg dbg => d.prev.addDeltas (drg + dg) dg (dbg + dg)
  | .run _ => d.prev
  | .rgb r g b => ⟨r, g, b, d.prev.a⟩
  | .rgba r g b a => ⟨r, g, b, a⟩

/-- How many pixels an op stands for (R188, R192). -/
def pixelCount : Instr → Nat
  | .run n => n
  | .index _ => 1
  | .diff _ _ _ => 1
  | .luma _ _ _ => 1
  | .rgb _ _ _ => 1
  | .rgba _ _ _ _ => 1

/-- R189: the ops after which the decoder of R188 stores; INDEX and RUN do not. -/
def storesColour : Instr → Bool
  | .index _ => false
  | .run _ => false
  | .diff _ _ _ => true
  | .luma _ _ _ => true
  | .rgb _ _ _ => true
  | .rgba _ _ _ _ => true

/-- R188: one op. With `storeAll` it is the decoder of R190, which stores after every op. -/
def Decoder.apply (storeAll : Bool) (d : Decoder) (i : Instr) : Decoder :=
  let px := d.pixelOf i
  (if storeAll || storesColour i then d.store px else d).produce (pixelCount i) px

/-- R188: "While `n < total`, read the tag byte and dispatch". Every op of the block produces a pixel, so `total` rounds of
`fuel` are enough. -/
def decodeOps (storeAll : Bool) (total : Nat) : Nat → List Byte → Decoder → Option (Decoder × List Byte)
  | 0, bytes, d => if total ≤ d.pixels.length then some (d, bytes) else none
  | fuel + 1, bytes, d =>
    if total ≤ d.pixels.length then some (d, bytes)
    else
      match decode bytes with
      | .ok (i, rest) => decodeOps storeAll total fuel rest (d.apply storeAll i)
      | .error _ => none

/-- R186: a big-endian `uint32`. -/
def wordOfBytes (b3 b2 b1 b0 : Byte) : Word := b3 ++ b2 ++ b1 ++ b0

/-- R195: the pixels as buffer bytes, the inverse of R54. DESIGN CHOICE (log entry 14): for `channels` other than 3 and 4, of
which the spec says nothing, three bytes a pixel. -/
def packBuffer (channels : Byte) (ps : List Pixel) : List Byte :=
  ps.flatMap fun p => if channels = 4 then [p.r, p.g, p.b, p.a] else [p.r, p.g, p.b]

/-- What the decoder returns: the description and the pixel buffer. -/
structure Decoded where
  width : Word
  height : Word
  channels : Byte
  colorspace : Byte
  buffer : List Byte
deriving DecidableEq, Repr

/-- R186 to R196: the header, the ops of `width × height` pixels, and then exactly the terminator. DESIGN CHOICE (log entry
14), on bytes the block did not produce, for which the spec gives no behaviour (93 I10): a wrong magic, an op cut short and
anything but the terminator at the end answer `none`; the header is not checked beyond its magic, so that a width or height
of 0 or a product at or above the ceiling (bytes 4 to 11), and other channel counts or colour spaces (bytes 12 and 13), may
still answer `some`; ops that the selector would not have chosen (R81) are applied as they stand; and a last RUN that passes
the pixel count keeps its extra pixels. -/
def decodeStream (storeAll : Bool) : List Byte → Option Decoded
  | m0 :: m1 :: m2 :: m3 :: w3 :: w2 :: w1 :: w0 :: h3 :: h2 :: h1 :: h0 :: channels :: colorspace :: ops =>
    let width := wordOfBytes w3 w2 w1 w0
    let height := wordOfBytes h3 h2 h1 h0
    let total := width.toNat * height.toNat
    if [m0, m1, m2, m3] = Config.magic then
      match decodeOps storeAll total total ops Decoder.init with
      | some (d, rest) =>
        if rest = Config.terminator then some ⟨width, height, channels, colorspace, packBuffer channels d.pixels⟩
        else none
      | none => none
    else none
  | _ => none

end Sys2Proof.Machine
end

