-- ==== Sys2Proof/Safety.lean ====
section
/-! DEFINITION. The terms claims are stated in: the invariants of 10_state.md rule R36, the sizes of
42_terminator_and_sizing.md, the rows of the output multiplexer (41_op_selector.md rule R150), the condition under which
each op is reached, and which ops the block can emit at all (30_encoding.md rule R81). -/

namespace Sys2Proof

/-- The ops some state of the block emits: the well-formed ones less those of R81 that no previous pixel allows, a DIFF
whose deltas are all 0 and a LUMA whose deltas fit DIFF. -/
def Instr.emittable (i : Instr) : Bool :=
  i.wellFormed &&
  match i with
  | .index _ => true
  | .diff dr dg db => !(decide (dr = 0) && decide (dg = 0) && decide (db = 0))
  | .luma dg drg dbg => !(inDiffRange (drg + dg) && inDiffRange dg && inDiffRange (dbg + dg))
  | .run _ => true
  | .rgb _ _ _ => true
  | .rgba _ _ _ _ => true

namespace Machine

/-- The thirteen fields of R20, with the model's own two, the waiting bytes and the host's inputs, blanked: what the rules of
the spec speak of (log entries 5 and 6). -/
def State.architectural (s : State) : State := { s with outPending := [], inputs := [] }

/-- The description the latches hold. -/
def State.latched (s : State) : StartArgs :=
  ⟨s.cfgWidth, s.cfgHeight, s.cfgChannels, s.cfgColorspace, s.cfgInLen⟩

/-- An encode is in progress or complete. -/
def State.active (s : State) : Prop := s.phase = .running ∨ s.phase = .done

/-- R36, all items but the history of item 4, and with them the legal latches of R33 and the error code of R31. -/
structure State.Inv (s : State) : Prop where
  /-- R36 item 1. -/
  run_le : s.run.toNat ≤ 61
  /-- R36 item 2. -/
  cache_slots : ∀ k : Slot, s.cacheAt k = Config.cacheInit ∨ hash6 (s.cacheAt k) = k
  /-- R36 item 3, the previous pixel. -/
  opaque_prev : s.cfgChannels = 3 → s.active → s.prev.a = 255
  /-- R36 item 3, the cache. -/
  opaque_cache : s.cfgChannels = 3 → s.active → ∀ k : Slot, s.cacheAt k = Config.cacheInit ∨ (s.cacheAt k).a = 255
  /-- R36 item 5. -/
  done_complete : s.phase = .done → s.pos.toNat = s.total ∧ s.run = 0
  /-- R36 item 6. -/
  running_before_end : s.phase = .running → s.pos.toNat < s.total
  /-- R33: "Legal values after a successful START are those of 60_exceptions.md rules R203 to R205". -/
  legal_latches : s.active → validate s.latched = .none
  /-- R31: the code is 0 in every phase but ERROR. -/
  code_iff_error : s.errCode ≠ .none ↔ s.phase = .error

/-- R173: the worst-case output size. -/
def State.bound (s : State) : Nat := s.total * (s.cfgChannels.toNat + 1) + 22

/-- One byte is owed for a pending run. -/
def State.owed (s : State) : Nat := if s.run = 0 then 0 else 1

/-- What the output history looks like in every phase: R28, R56, R114, R170, R174, R176, R177. -/
structure State.StreamInv (s : State) : Prop where
  /-- R28: `out_count` is the length of `out`. -/
  count : s.outCount = BitVec.ofNat 32 s.out.length
  /-- R202, R225: nothing has been emitted in IDLE and ERROR. -/
  silent : ¬ s.active → s.out = []
  /-- R177: the stream begins with the header of the latched description. -/
  header_first : s.active → header s.latched <+: s.out
  /-- R174, charged pixel by pixel. -/
  size_running : s.phase = .running → s.out.length + s.owed ≤ 14 + s.pos.toNat * (s.cfgChannels.toNat + 1)
  /-- R176: after the first pixel at least one op byte is out or owed. -/
  some_op : s.phase = .running → s.pos ≠ 0 → 15 ≤ s.out.length + s.owed
  /-- R170: a complete stream ends with the terminator. -/
  terminator_last : s.phase = .done → Config.terminator <:+ s.out
  /-- R174. -/
  size_done : s.phase = .done → s.out.length ≤ s.bound
  /-- R176. -/
  size_min : s.phase = .done → 23 ≤ s.out.length

/-- R150: the flush byte `F` of rows 3 to 7, if a run is pending. -/
def flushBytes (runBefore : Nat) : List Byte := if 0 < runBefore then [0xC0 ||| BitVec.ofNat 8 (runBefore - 1)] else []

/-- R147: the DIFF byte as the rule writes it. -/
def diffByte (dr dg db : Int) : Byte :=
  0x40 ||| (BitVec.ofInt 8 (dr + 2) <<< 4) ||| (BitVec.ofInt 8 (dg + 2) <<< 2) ||| BitVec.ofInt 8 (db + 2)

/-- R148: the two LUMA bytes as the rule writes them. -/
def lumaBytes (dg drg dbg : Int) : List Byte :=
  [0x80 ||| BitVec.ofInt 8 (dg + 32), (BitVec.ofInt 8 (drg + 8) <<< 4) ||| BitVec.ofInt 8 (dbg + 8)]

/-- R143: the RUN byte as the rule writes it. -/
def runByte (n : Nat) : Byte := 0xC0 ||| BitVec.ofNat 8 (n - 1)

/-- R150, the output multiplexer: the bytes of one PIXEL step, by the first row whose condition holds. -/
def muxBytes (px : Pixel) (s : State) : List Byte :=
  let f := flushBytes s.run.toNat
  if px = s.prev ∧ (s.run.toNat + 1 = 62 ∨ s.pos.toNat + 1 = s.total) then [0xC0 ||| BitVec.ofNat 8 s.run.toNat]
  else if px = s.prev then []
  else if s.cacheAt (hash6 px) = px then f ++ [BitVec.ofNat 8 (hash6 px).val]
  else if px.a ≠ s.prev.a then f ++ [0xFF, px.r, px.g, px.b, px.a]
  else if s.diffOk px then f ++ [diffByte (deltaRed px s.prev) (deltaGreen px s.prev) (deltaBlue px s.prev)]
  else if s.lumaOk px then f ++ lumaBytes (deltaGreen px s.prev) (relRed px s.prev) (relBlue px s.prev)
  else f ++ [0xFE, px.r, px.g, px.b]

/-- When a pixel that is no repeat reaches the op `i`, op by op as R144 and R146 to R149 write it. No such pixel reaches
RUN. -/
def Reaches (px : Pixel) (s : State) : Instr → Prop
  | .index slot => s.cacheAt slot = px ∧ slot = hash6 px
  | .rgba r g b a => s.cacheAt (hash6 px) ≠ px ∧ px.a ≠ s.prev.a ∧ px = ⟨r, g, b, a⟩
  | .diff dr dg db =>
    s.cacheAt (hash6 px) ≠ px ∧ px.a = s.prev.a ∧ s.diffOk px = true ∧
      dr = deltaRed px s.prev ∧ dg = deltaGreen px s.prev ∧ db = deltaBlue px s.prev
  | .luma dg drg dbg =>
    s.cacheAt (hash6 px) ≠ px ∧ px.a = s.prev.a ∧ s.diffOk px = false ∧ s.lumaOk px = true ∧
      dg = deltaGreen px s.prev ∧ drg = relRed px s.prev ∧ dbg = relBlue px s.prev
  | .rgb r g b =>
    s.cacheAt (hash6 px) ≠ px ∧ px.a = s.prev.a ∧ s.diffOk px = false ∧ s.lumaOk px = false ∧
      r = px.r ∧ g = px.g ∧ b = px.b
  | .run _ => False

/-- R106 in one line: a description and length that START accepts. -/
def ValidImage (width height : Word) (channels colorspace : Byte) (buf : List Byte) : Prop :=
  0 < width.toNat ∧ 0 < height.toNat ∧ width.toNat * height.toNat < 400000000 ∧
  (channels = 3 ∨ channels = 4) ∧ (colorspace = 0 ∨ colorspace = 1) ∧
  buf.length = width.toNat * height.toNat * channels.toNat

/-- The waiting bytes that the host leaves in this step (R55). -/
def State.left (s : State) : List Byte := if s.ports.outReady then s.outPending.tail else s.outPending

/-- One pixel offered, and then time for the host to take the at most 14 bytes of its step (R102, R229). -/
def offerAndDrain (p : Pixel) : List Ports :=
  Ports.offer p :: List.replicate 14 { Ports.quiet with outReady := true }

end Machine

end Sys2Proof
end

