-- ==== Sys2Proof/Certificates/Slice0/Obligations.lean ====
section
/-! DEFINITION. The statements for the provers, from the numbered rules of the spec: encodings, ops, the selector, the three
commands at the ports, invariants, and properties of whole streams. -/

open Sys2Proof Sys2Proof.Machine

/-! ### Encoding -/

/-- One word per row of spec/opcode_table.json, written out from R72 to R77, decodes to its op (95 P3, V-DIFF-3).
Which of FE and FF is RGB is R78's assignment from general knowledge: log entry 1. -/
def Obligations.TableWordsDecodeToTheirOps : Prop :=
  decodeTableWord 8 0b00001011 = some (.index 11) ∧
  decodeTableWord 8 0b01011110 = some (.diff (-1) 1 0) ∧
  decodeTableWord 16 0b00110001_10111000 = some (.luma 24 (-5) (-7)) ∧
  decodeTableWord 8 0b11000001 = some (.run 2) ∧
  decodeTableWord 32 0x0A0AC8FE = some (.rgb 200 10 10) ∧
  decodeTableWord 40 0x80010101FF = some (.rgba 1 1 1 128)

/-- Every well-formed op is read back from its bytes, whatever follows them. -/
def Obligations.DecodeOfEncodeIsTheOp : Prop :=
  ∀ (i : Instr) (rest : List Byte), i.wellFormed = true → decode (encode i ++ rest) = .ok (i, rest)

/-- What is read is well formed, and its bytes are the bytes that were read. -/
def Obligations.EncodeOfDecodeIsTheBytes : Prop :=
  ∀ (bytes : List Byte) (i : Instr) (rest : List Byte), decode bytes = .ok (i, rest) →
    i.wellFormed = true ∧ encode i ++ rest = bytes

/-- R71, with R80 and R87, which the spec derives from it: each of the 256 tag bytes, with the payload its value calls for, is
exactly one op, of the family and length of the tag table. That FE is RGB and FF is RGBA is R78, from general knowledge: log
entry 1. -/
def Obligations.EveryTagByteIsOneOp : Prop :=
  ∀ (t : Byte) (payload rest : List Byte),
    payload.length =
      (if t.toNat = 0xFE then 3 else if t.toNat = 0xFF then 4
        else if 0x80 ≤ t.toNat ∧ t.toNat ≤ 0xBF then 1 else 0) →
    ∃ i : Instr, i.wellFormed = true ∧ encode i = t :: payload ∧ decode (t :: payload ++ rest) = .ok (i, rest) ∧
      match i with
      | .index _ => t.toNat ≤ 0x3F
      | .diff _ _ _ => 0x40 ≤ t.toNat ∧ t.toNat ≤ 0x7F
      | .luma _ _ _ => 0x80 ≤ t.toNat ∧ t.toNat ≤ 0xBF
      | .run _ => 0xC0 ≤ t.toNat ∧ t.toNat ≤ 0xFD
      | .rgb _ _ _ => t.toNat = 0xFE
      | .rgba _ _ _ _ => t.toNat = 0xFF

/-- An empty stream, and a stream that ends inside the payload R87 calls for, hold no op. THE MODEL'S CHOICE, no rule of the
spec: the spec gives no decoder behaviour on bytes the block did not produce (R185, 93 I10), so that the reader refuses them,
and by the names `noTag` and `shortPayload`, is log entry 14. -/
def Obligations.ShortStreamsAreRefusedByName : Prop :=
  decode [] = .error .noTag ∧
  ∀ (t : Byte) (payload : List Byte), payload.length < payloadLength t →
    decode (t :: payload) = .error (.shortPayload t)

/-- R72 to R77, R79: the packing formulas of the six formats, for every operand in the ranges of R82. R76 and R77 name the
literal tags only; that RGB is FE and RGBA is FF is R78, from general knowledge: log entry 1. -/
def Obligations.OpBytesFollowTheFormats : Prop :=
  (∀ slot : Slot, encode (.index slot) = [BitVec.ofNat 8 slot.val]) ∧
  (∀ dr dg db : Int, -2 ≤ dr → dr ≤ 1 → -2 ≤ dg → dg ≤ 1 → -2 ≤ db → db ≤ 1 →
    encode (.diff dr dg db) = [diffByte dr dg db]) ∧
  (∀ dg drg dbg : Int, -32 ≤ dg → dg ≤ 31 → -8 ≤ drg → drg ≤ 7 → -8 ≤ dbg → dbg ≤ 7 →
    encode (.luma dg drg dbg) = lumaBytes dg drg dbg) ∧
  (∀ n : Nat, 1 ≤ n → n ≤ 62 →
    encode (.run n) = [runByte n] ∧ 0xC0 ≤ (runByte n).toNat ∧ (runByte n).toNat ≤ 0xFD) ∧
  (∀ r g b : Byte, encode (.rgb r g b) = [0xFE, r, g, b]) ∧
  (∀ r g b a : Byte, encode (.rgba r g b a) = [0xFF, r, g, b, a])

/-! ### Datapath -/

/-- R131: 6-bit wrap-around arithmetic on the low 6 bits of each channel gives the slot of R130, and the exact
quantities fit the widths the rule names. -/
def Obligations.DatapathWidthsSuffice : Prop :=
  ∀ p q : Pixel,
    (hash6 p).val =
      (3 * p.r.setWidth 6 + 5 * p.g.setWidth 6 + 7 * p.b.setWidth 6 + 11 * p.a.setWidth 6 : BitVec 6).toNat ∧
    hashSum p ≤ 6630 ∧
    (-255 ≤ deltaRed p q ∧ deltaRed p q ≤ 255) ∧ (-255 ≤ deltaGreen p q ∧ deltaGreen p q ≤ 255) ∧
    (-255 ≤ deltaBlue p q ∧ deltaBlue p q ≤ 255) ∧
    (-510 ≤ relRed p q ∧ relRed p q ≤ 510) ∧ (-510 ≤ relBlue p q ∧ relBlue p q ≤ 510)

/-- R134 to R136: the deltas are exact signed integers, with no wrap-around; the two range predicates, both bounds included,
written over those integers; and, as the spec derives there, DIFF deltas always fit LUMA. -/
def Obligations.RangePredicatesNest : Prop :=
  ∀ (s : State) (px : Pixel) (dr dg db : Int),
    dr = (px.r.toNat : Int) - s.prev.r.toNat → dg = (px.g.toNat : Int) - s.prev.g.toNat →
    db = (px.b.toNat : Int) - s.prev.b.toNat →
    (deltaRed px s.prev = dr ∧ deltaGreen px s.prev = dg ∧ deltaBlue px s.prev = db ∧
      relRed px s.prev = dr - dg ∧ relBlue px s.prev = db - dg) ∧
    (s.diffOk px = true ↔ (-2 ≤ dr ∧ dr ≤ 1) ∧ (-2 ≤ dg ∧ dg ≤ 1) ∧ (-2 ≤ db ∧ db ≤ 1)) ∧
    (s.lumaOk px = true ↔
      (-32 ≤ dg ∧ dg ≤ 31) ∧ (-8 ≤ dr - dg ∧ dr - dg ≤ 7) ∧ (-8 ≤ db - dg ∧ db - dg ≤ 7)) ∧
    (s.diffOk px = true → s.lumaOk px = true ∧ (-3 ≤ dr - dg ∧ dr - dg ≤ 3) ∧ (-3 ≤ db - dg ∧ db - dg ≤ 3))

/-- R11: the layout of the pixel word, and that packing loses nothing in either direction. -/
def Obligations.PixelWordLayout : Prop :=
  (∀ p : Pixel, p.pack.extractLsb' 24 8 = p.r ∧ p.pack.extractLsb' 16 8 = p.g ∧ p.pack.extractLsb' 8 8 = p.b ∧
    p.pack.extractLsb' 0 8 = p.a ∧ Pixel.ofWord p.pack = p) ∧
  ∀ w : Word, (Pixel.ofWord w).pack = w

/-- R54, R195: pixel `k` of a buffer of whole pixel groups has the bytes of group `k` as its channels, in the order r, g, b and,
for 4 channels, a (255 for 3 channels); and the pixels packed again are the buffer. -/
def Obligations.BufferUnpacksAndPacksBack : Prop :=
  ∀ (channels : Byte) (buf : List Byte) (n : Nat), (channels = 3 ∨ channels = 4) → buf.length = n * channels.toNat →
    (unpackBuffer buf channels).length = n ∧ packBuffer channels (unpackBuffer buf channels) = buf ∧
    (channels = 3 → ∀ p ∈ unpackBuffer buf channels, p.a = 255) ∧
    ∀ k : Nat, k < n → (unpackBuffer buf channels)[k]? = some ⟨buf.getD (k * channels.toNat) 0,
      buf.getD (k * channels.toNat + 1) 0, buf.getD (k * channels.toNat + 2) 0,
      if channels = 4 then buf.getD (k * channels.toNat + 3) 0 else 255⟩

/-! ### The six ops: each completes, with its whole effect -/

/-- R144: INDEX emits its slot and makes the slot's pixel the previous one; it changes nothing else. (`outPending`, here and in
the five statements below, is the model's output port: log entry 6.) -/
def Obligations.IndexOpCompletes : Prop :=
  ∀ (slot : Slot) (s : State),
    exec (.index slot) s = .next { s with
      out := s.out ++ [BitVec.ofNat 8 slot.val]
      outCount := s.outCount + 1
      outPending := s.outPending ++ [BitVec.ofNat 8 slot.val]
      prev := s.cacheAt slot }

/-- R143: RUN emits its count and clears the run; it changes nothing else, the cache and `prev` among it. -/
def Obligations.RunOpCompletes : Prop :=
  ∀ (n : Nat) (s : State), 1 ≤ n → n ≤ 62 →
    exec (.run n) s = .next { s with
      out := s.out ++ [runByte n]
      outCount := s.outCount + 1
      outPending := s.outPending ++ [runByte n]
      run := 0 }

/-- R147 with R145: DIFF emits one byte, stores the pixel with the given deltas from `prev` in its slot and makes it the
previous one. The pixel is `prev` plus the deltas, and it is the only pixel that has these deltas and the alpha of
`prev`. (Where a sum leaves 0..255 no pixel has these deltas, and the sum is taken modulo 256: log entry 7.) -/
def Obligations.DiffOpCompletes : Prop :=
  ∀ (dr dg db : Int) (s : State), -2 ≤ dr → dr ≤ 1 → -2 ≤ dg → dg ≤ 1 → -2 ≤ db → db ≤ 1 →
    ∃ px : Pixel,
      px = ⟨BitVec.ofInt 8 (s.prev.r.toNat + dr), BitVec.ofInt 8 (s.prev.g.toNat + dg),
        BitVec.ofInt 8 (s.prev.b.toNat + db), s.prev.a⟩ ∧
      (∀ q : Pixel, q.a = s.prev.a → deltaRed q s.prev = dr → deltaGreen q s.prev = dg → deltaBlue q s.prev = db →
        px = q) ∧
      exec (.diff dr dg db) s = .next { s with
        out := s.out ++ [diffByte dr dg db]
        outCount := s.outCount + 1
        outPending := s.outPending ++ [diffByte dr dg db]
        cache := s.cache.set (hash6 px).val px
        prev := px }

/-- R148 with R145: LUMA emits two bytes, stores the pixel and makes it the previous one. -/
def Obligations.LumaOpCompletes : Prop :=
  ∀ (dg drg dbg : Int) (s : State), -32 ≤ dg → dg ≤ 31 → -8 ≤ drg → drg ≤ 7 → -8 ≤ dbg → dbg ≤ 7 →
    ∃ px : Pixel,
      px = ⟨BitVec.ofInt 8 (s.prev.r.toNat + (drg + dg)), BitVec.ofInt 8 (s.prev.g.toNat + dg),
        BitVec.ofInt 8 (s.prev.b.toNat + (dbg + dg)), s.prev.a⟩ ∧
      (∀ q : Pixel, q.a = s.prev.a → deltaGreen q s.prev = dg → relRed q s.prev = drg → relBlue q s.prev = dbg →
        px = q) ∧
      exec (.luma dg drg dbg) s = .next { s with
        out := s.out ++ lumaBytes dg drg dbg
        outCount := s.outCount + 2
        outPending := s.outPending ++ lumaBytes dg drg dbg
        cache := s.cache.set (hash6 px).val px
        prev := px }

/-- R149 with R145: the RGB literal emits its tag and three channels, and stores and remembers that colour with the alpha
of `prev`. (The tag FE is log entry 1.) -/
def Obligations.RgbOpCompletes : Prop :=
  ∀ (r g b : Byte) (s : State),
    exec (.rgb r g b) s = .next { s with
      out := s.out ++ [0xFE, r, g, b]
      outCount := s.outCount + 4
      outPending := s.outPending ++ [0xFE, r, g, b]
      cache := s.cache.set (hash6 ⟨r, g, b, s.prev.a⟩).val ⟨r, g, b, s.prev.a⟩
      prev := ⟨r, g, b, s.prev.a⟩ }

/-- R146 with R145: the RGBA literal emits its tag and four channels, and stores and remembers that pixel. (The tag FF is log
entry 1.) -/
def Obligations.RgbaOpCompletes : Prop :=
  ∀ (r g b a : Byte) (s : State),
    exec (.rgba r g b a) s = .next { s with
      out := s.out ++ [0xFF, r, g, b, a]
      outCount := s.outCount + 5
      outPending := s.outPending ++ [0xFF, r, g, b, a]
      cache := s.cache.set (hash6 ⟨r, g, b, a⟩).val ⟨r, g, b, a⟩
      prev := ⟨r, g, b, a⟩ }

/-- The frame of every op: the control state, the latches, the position and the host's inputs stay; `out` grows by the op's
own bytes; only the slot of the new previous pixel may change, and no slot does for INDEX and RUN (R28, R53, R55, R189).
The clauses on `outPending` and `inputs` are the model's (log entries 6 and 5), and so is what an op with operands outside R82
does, RUN 0 and RUN 63 among them, which this statement covers as well (log entry 8). -/
def Obligations.OpsTouchOnlyTheirOwnState : Prop :=
  ∀ (i : Instr) (s t : State), exec i s = .next t →
    t.phase = s.phase ∧ t.errCode = s.errCode ∧ t.latched = s.latched ∧ t.pos = s.pos ∧ t.inputs = s.inputs ∧
    t.out = s.out ++ encode i ∧ t.outPending = s.outPending ++ encode i ∧
    t.outCount = s.outCount + BitVec.ofNat 32 (encode i).length ∧
    (∀ k : Slot, k ≠ hash6 t.prev → t.cacheAt k = s.cacheAt k) ∧
    (storesColour i = false → t.cache = s.cache) ∧
    (storesColour i = true → t.cacheAt (hash6 t.prev) = t.prev ∧ t.run = s.run) ∧
    (∀ slot, i = .index slot → t.run = s.run) ∧
    (∀ n, i = .run n → t.prev = s.prev)

/-! ### The op selector -/

/-- R144, R146 to R149: for a pixel that is no repeat of `prev`, the premise of all five rules, the op chosen is the one whose
own rule it reaches. (A repeat reaches none of them: R140.) -/
def Obligations.ChosenOpIsTheOneReached : Prop :=
  ∀ (px : Pixel) (s : State) (i : Instr), px ≠ s.prev → (chooseOp px s = i ↔ Reaches px s i)

/-- R151, with the rows of R150, which the spec derives, for the bytes: in every state with at most 61 pending repeats (R36 item 1), the op-selector step
emits exactly the row of the output multiplexer, at most 6 bytes, and leaves `run`, `prev` and the cache as the pseudocode does;
no other field of R20 changes. The literal tags FE and FF in the rows are R78, from general knowledge: log entry 1. -/
def Obligations.SelectorStepFollowsThePseudocode : Prop :=
  ∀ (p px : Pixel) (s : State), px = (if s.cfgChannels = 3 then ⟨p.r, p.g, p.b, 255⟩ else p) → s.run.toNat ≤ 61 →
    (muxBytes px s).length ≤ 6 ∧
    ∃ t, opSelect p s = .next t ∧ t.architectural = { s.architectural with
      out := s.out ++ muxBytes px s
      outCount := s.outCount + BitVec.ofNat 32 (muxBytes px s).length
      run := if px = s.prev ∧ s.run.toNat + 1 ≠ 62 ∧ s.pos.toNat + 1 ≠ s.total then s.run + 1 else 0
      prev := px
      cache := if px = s.prev ∨ s.cacheAt (hash6 px) = px then s.cache else s.cache.set (hash6 px).val px }

/-- R81, what one step shows of it: between the invariant's bounds the block never forms an ill-formed op, never a RUN outside
1..62, never an op for a pixel that an earlier row takes, never RGBA in 3-channel mode, and never the same INDEX twice
running. -/
def Obligations.SelectorNeverEmitsTheExcludedOps : Prop :=
  ∀ (p px : Pixel) (s : State), s.Inv → s.phase = .running → px = normalise s.cfgChannels p →
    (px ≠ s.prev → (chooseOp px s).emittable = true) ∧
    (s.run ≠ 0 → (Instr.run s.run.toNat).wellFormed = true) ∧
    (Instr.run (s.run.toNat + 1)).wellFormed = true ∧
    (s.cacheAt (hash6 px) = px → chooseOp px s = .index (hash6 px)) ∧
    (px.a ≠ s.prev.a → ∀ dr dg db, chooseOp px s ≠ .diff dr dg db ∧ chooseOp px s ≠ .luma dr dg db) ∧
    (px.a ≠ s.prev.a → ∀ r g b, chooseOp px s ≠ .rgb r g b) ∧
    (s.lumaOk px = true → ∀ r g b, chooseOp px s ≠ .rgb r g b) ∧
    (s.cfgChannels = 3 → ∀ r g b a, chooseOp px s ≠ .rgba r g b a) ∧
    (∀ (slot : Slot) (t : State), exec (.index slot) s = .next t → px ≠ t.prev → chooseOp px t ≠ .index slot)

/-- R133: in 3-channel mode the alpha lane of the port does not matter, and the pixel remembered is opaque. -/
def Obligations.AlphaLaneIsIgnoredForThreeChannels : Prop :=
  ∀ (r g b a a' : Byte) (s : State), s.phase = .running → s.cfgChannels = 3 →
    pixel ⟨r, g, b, a⟩ s = pixel ⟨r, g, b, a'⟩ s ∧
    ∃ t, pixel ⟨r, g, b, a⟩ s = .next t ∧ t.prev = ⟨r, g, b, 255⟩

/-! ### Steps at the ports -/

/-- An accepted pixel's step is the op-selector's ops, run one after another by `exec`, and then the end of the PIXEL step: a
pending RUN and the pixel's own op, or a RUN, or no op at all (R142, R144 to R149, R141, R140, R112). The beat of
the ports before them is the model's: log entries 5 and 6. -/
def Obligations.StepRunsTheSelectedOps : Prop :=
  ∀ (s : State) (px : Pixel), s.ports.rst = false → s.ports.pixValid = true → s.phase = .running → s.outPending = [] →
    px = normalise s.cfgChannels (Pixel.ofWord s.ports.pixData) →
    (px ≠ s.prev → s.run = 0 →
      step s = andThen (exec (chooseOp px s) s.beat) fun t => .next t.finishPixel) ∧
    (px ≠ s.prev → s.run ≠ 0 →
      step s = andThen (exec (.run s.run.toNat) s.beat) fun t =>
        andThen (exec (chooseOp px s) t) fun u => .next u.finishPixel) ∧
    (px = s.prev → (s.run + 1 = 62 ∨ s.pos.toNat + 1 = s.total) →
      step s = andThen (exec (.run (s.run + 1).toNat) (s.beat.setRun (s.run + 1))) fun t => .next t.finishPixel) ∧
    (px = s.prev → s.run + 1 ≠ 62 → s.pos.toNat + 1 ≠ s.total →
      step s = .next (s.beat.setRun (s.run + 1)).finishPixel)

/-- Every op that some state emits runs as the very next step once its word is placed, from any state. (How a word is placed
is the model's choice, log entry 9; so are the zeros of a word shorter than its op, log entry 17, and the beat, log entries 5
and 6.) -/
def Obligations.EveryEmittableWordRunsNext : Prop :=
  ∀ (s : State) (nbits w : Nat) (i : Instr), decodeTableWord nbits w = some i → i.emittable = true →
    step (s.withFetchWord nbits w) =
      andThen (exec i (s.withFetchWord nbits w).beat) fun t => .next t.finishPixel

/-- R225: RESET, in every phase, puts every state element at its reset value and discards the bytes not yet taken. -/
def Obligations.ResetSetsEveryElement : Prop :=
  ∀ s : State, s.ports.rst = true →
    ∃ t, step s = .next t ∧ t.outPending = [] ∧ t.architectural = {
      phase := .idle, errCode := .none, cfgWidth := 0, cfgHeight := 0, cfgChannels := 0, cfgColorspace := 0, cfgInLen := 0
      pos := 0, prev := ⟨0, 0, 0, 255⟩, run := 0, cache := Vector.replicate 64 ⟨0, 0, 0, 0⟩
      out := [], outCount := 0, outPending := [], inputs := [] }

/-- R212: of simultaneous commands RESET is taken first, then START if it is accepted, then PIXEL; the others have no effect,
and START and PIXEL are never both acceptable. That the command runs on `s.beat`, after one output handshake and with the next
port values, is the model's and no part of R212: log entries 5 and 6. -/
def Obligations.OneCommandIsTakenPerStep : Prop :=
  ∀ s : State,
    (s.ports.rst = true → step s = runCommand .reset s.beat) ∧
    (s.ports.rst = false → s.ports.start = true → s.phase ≠ .running → step s = runCommand (.start s.ports.cfg) s.beat) ∧
    (s.ports.rst = false → (s.ports.start = false ∨ s.phase = .running) → s.ports.pixValid = true → s.pixReady = true →
      step s = runCommand (.pixel (Pixel.ofWord s.ports.pixData)) s.beat) ∧
    ¬ (s.startReady = true ∧ s.pixReady = true)

/-- R100, R104: a command that is not accepted changes no state and emits no bytes: the step is the output handshake alone, one beat
of the model's ports (log entries 5 and 6). -/
def Obligations.CommandsNotAcceptedDoNothing : Prop :=
  ∀ s : State, s.ports.rst = false → (s.ports.start = false ∨ s.phase = .running) →
    (s.ports.pixValid = false ∨ s.phase ≠ .running ∨ s.outPending ≠ []) →
    step s = .next { s with
      outPending := if s.ports.outReady = true then s.outPending.drop 1 else s.outPending
      inputs := s.inputs.drop 1 }

/-- R105, R107 to R109: a START that passes the checks of R106 latches the description, starts the running state afresh, emits
the 14 header bytes and enters RUNNING. The four magic bytes are R84, from general knowledge: log entry 2. The ceiling's boundary
is log entry 4. -/
def Obligations.ValidStartBeginsAnEncode : Prop :=
  ∀ (s : State) (w h : Word) (ch cs : Byte) (len : BitVec 64) (hdr : List Byte),
    s.ports.rst = false → s.ports.start = true → s.ports.cfg = ⟨w, h, ch, cs, len⟩ → s.phase ≠ .running →
    0 < w.toNat → 0 < h.toNat → w.toNat * h.toNat < 400000000 → (ch = 3 ∨ ch = 4) → (cs = 0 ∨ cs = 1) →
    len.toNat = w.toNat * h.toNat * ch.toNat →
    hdr = [0x71, 0x6F, 0x69, 0x66,
      w.extractLsb' 24 8, w.extractLsb' 16 8, w.extractLsb' 8 8, w.extractLsb' 0 8,
      h.extractLsb' 24 8, h.extractLsb' 16 8, h.extractLsb' 8 8, h.extractLsb' 0 8, ch, cs] →
    ∃ t, step s = .next t ∧ t.architectural = {
      phase := .running, errCode := .none, cfgWidth := w, cfgHeight := h, cfgChannels := ch, cfgColorspace := cs
      cfgInLen := len, pos := 0, prev := ⟨0, 0, 0, 255⟩, run := 0, cache := Vector.replicate 64 ⟨0, 0, 0, 0⟩
      out := hdr, outCount := 14, outPending := [], inputs := [] }

/-- R202 to R206: a START that fails reports the first failed check, enters ERROR with `out` empty and the presented
values latched, and no other field of R20 changes. That `pos`, `prev`, `run` and `cache` are kept is R202 and D25, where 93 I13
says any value: log entry 10. That exactly 400,000,000 pixels is refused is D5: log entry 4. -/
def Obligations.FailedStartReportsTheFirstError : Prop :=
  ∀ (s : State) (w h : Word) (ch cs : Byte) (len : BitVec 64) (code : ErrCode),
    s.ports.rst = false → s.ports.start = true → s.ports.cfg = ⟨w, h, ch, cs, len⟩ → s.phase ≠ .running →
    ((w = 0 ∨ h = 0 ∨ 400000000 ≤ w.toNat * h.toNat) ∧ code = .invalidDimensions ∨
      (w ≠ 0 ∧ h ≠ 0 ∧ w.toNat * h.toNat < 400000000) ∧ ((ch ≠ 3 ∧ ch ≠ 4) ∨ (cs ≠ 0 ∧ cs ≠ 1)) ∧
        code = .invalidFormat ∨
      (w ≠ 0 ∧ h ≠ 0 ∧ w.toNat * h.toNat < 400000000) ∧ ((ch = 3 ∨ ch = 4) ∧ (cs = 0 ∨ cs = 1)) ∧
        len.toNat ≠ w.toNat * h.toNat * ch.toNat ∧ code = .malformedLength) →
    ∃ t, step s = .next t ∧ t.architectural = { s.architectural with
      phase := .error, errCode := code, cfgWidth := w, cfgHeight := h, cfgChannels := ch, cfgColorspace := cs
      cfgInLen := len, out := [], outCount := 0 }

/-- R112: outside RUNNING a PIXEL is not accepted and changes nothing. In RUNNING the step is the op-selector step, which emits
its row of the multiplexer, then `pos <- pos + 1`; the last pixel then emits the terminator and enters DONE, and any other
stays in RUNNING. No other field of R20 changes. The row is R150 and the cleared run R171 (R26, R36), which the spec derives;
the literal tags FE and FF in the rows are log entry 1. -/
def Obligations.PixelEmitsItsRowAndTheLastTheTerminator : Prop :=
  ∀ (p px : Pixel) (s : State), px = normalise s.cfgChannels p →
    (s.phase ≠ .running → pixel p s = .next s) ∧
    (s.Inv → s.phase = .running →
      ∃ u t, opSelect p s = .next u ∧ pixel p s = .next t ∧ (s.pos + 1).toNat = s.pos.toNat + 1 ∧
        (muxBytes px s).length ≤ 6 ∧ u.out = s.out ++ muxBytes px s ∧
        (s.pos.toNat + 1 = s.total → u.run = 0 ∧ t.architectural = { u.architectural with
          pos := s.pos + 1
          out := s.out ++ muxBytes px s ++ [0, 0, 0, 0, 0, 0, 0, 1]
          outCount := u.outCount + 8
          phase := .done }) ∧
        (s.pos.toNat + 1 ≠ s.total → t.architectural = { u.architectural with pos := s.pos + 1, phase := .running }))

/-- R155, R207: no step of any state stops. -/
def Obligations.EveryStepHasANextState : Prop :=
  ∀ s : State, ∃ t, step s = .next t

/-- R30, R113, R209: the only events that change the phase. The last PIXEL is accepted with
`pix_ready` high (R100, R102). (The ports of a step are the head of `inputs`, the bytes not taken `outPending`: log entries 5
and 6.) -/
def Obligations.PhaseChangesOnlyByItsCommands : Prop :=
  ∀ s t : State, step s = .next t → t.phase ≠ s.phase →
    (s.ports.rst = true ∧ t.phase = .idle) ∨
    (s.ports.rst = false ∧ s.ports.start = true ∧ s.phase ≠ .running ∧ (t.phase = .running ∨ t.phase = .error)) ∨
    (s.ports.rst = false ∧ s.phase = .running ∧ s.ports.pixValid = true ∧ s.outPending = [] ∧
      (s.pos + 1).toNat = s.total ∧ t.phase = .done)

/-- R33, R116: without RESET and without an accepted START, no step writes a configuration latch or the error code. (The
ports of a step are the head of `inputs`: log entry 5.) -/
def Obligations.LatchesAreWrittenByStartAndResetOnly : Prop :=
  ∀ s t : State, step s = .next t → s.ports.rst = false → (s.ports.start = false ∨ s.phase = .running) →
    t.latched = s.latched ∧ t.errCode = s.errCode

/-- R231: the configuration ports matter only in a step that takes a START. -/
def Obligations.ConfigurationPortsAreReadOnlyAtStart : Prop :=
  ∀ (s : State) (p : Ports) (rest : List Ports) (c : StartArgs), s.inputs = p :: rest →
    (p.rst = true ∨ p.start = false ∨ s.phase = .running) →
    step s = step { s with inputs := { p with cfg := c } :: rest }

/-- R119: the colour space reaches header byte 13 and nothing else: no pixel step depends on it. (That START keeps the bytes
not yet taken, before the new header, as the `outPending` clause says, is the model's reading and no part of R119: log
entry 6.) -/
def Obligations.ColorspaceReachesOnlyHeaderByte13 : Prop :=
  (∀ (p : Pixel) (s t : State) (c : Byte), pixel p s = .next t →
    pixel p { s with cfgColorspace := c } = .next { t with cfgColorspace := c }) ∧
  ∀ (a : StartArgs) (s : State), s.phase ≠ .running → validate { a with colorspace := 0 } = .none →
    start { a with colorspace := 1 } s =
      { start { a with colorspace := 0 } s with
        cfgColorspace := 1
        out := (start { a with colorspace := 0 } s).out.take 13 ++ [1]
        outPending := s.outPending ++ ((start { a with colorspace := 0 } s).out.take 13 ++ [1]) }

/-- R55, R59: the output port loses, repeats and reorders nothing: without RESET, the bytes waiting after a step are those
that waited before, less the one the host took, then the bytes the step emitted. One byte a beat,
the field `outPending`, and what START keeps in it are the model's: log entries 5 and 6. -/
def Obligations.OutputPortIsLosslessAndOrdered : Prop :=
  ∀ s t : State, step s = .next t → s.ports.rst = false →
    s.outPending = s.takenByte.toList ++ s.left ∧
    ∃ emitted : List Byte, t.outPending = s.left ++ emitted ∧
      (t.out = s.out ++ emitted ∨ (s.ports.start = true ∧ s.phase ≠ .running ∧ t.out = emitted))

/-- R31, R32, R101, R102, R104, R201: in every state `err_code` has the number of R31, `stat_width` and `stat_height` are the
latches, and `out_valid` and `out_byte` offer the oldest byte not taken. Under the invariant the status outputs are functions
of the phase, at most one of `busy`, `done` and `error` is high, `err_code` is 0 exactly outside ERROR, and `pix_ready` is
high exactly in RUNNING with all output taken (the bytes not taken are the model's `outPending`: log entry 6). -/
def Obligations.StatusOutputsFollowThePhase : Prop :=
  ∀ s : State,
    (s.errCodePort = match s.errCode with
      | .none => 0
      | .invalidDimensions => 1
      | .malformedLength => 2
      | .invalidFormat => 3) ∧
    s.statWidth = s.cfgWidth ∧ s.statHeight = s.cfgHeight ∧
    (s.outValid = true ↔ s.outPending ≠ []) ∧
    (∀ (b : Byte) (rest : List Byte), s.outPending = b :: rest → s.outByte = some b) ∧
    (s.Inv →
      (s.busy = true ↔ s.phase = .running) ∧ (s.isDone = true ↔ s.phase = .done) ∧ (s.isError = true ↔ s.phase = .error) ∧
      (s.errCodePort ≠ 0 ↔ s.isError = true) ∧
      (s.pixReady = true ↔ s.phase = .running ∧ s.outValid = false) ∧ (s.startReady = true ↔ s.phase ≠ .running) ∧
      (s.busy = true → s.isDone = false ∧ s.isError = false) ∧ (s.isDone = true → s.isError = false))

/-! ### Invariants -/

def Obligations.ResetMeetsTheStateInvariant : Prop := State.reset.Inv

/-- R36, which the spec derives (item 4 apart, see `PendingRunCountsEqualPixels`), kept by every step from every state that
has it. -/
def Obligations.EveryStepKeepsTheStateInvariant : Prop :=
  ∀ s t : State, s.Inv → step s = .next t → t.Inv

def Obligations.ResetMeetsTheStreamInvariant : Prop := State.reset.StreamInv

/-- R28, R56, R114, R170, R174, R176, R177, kept by every step; the derived ones among them (R174, R176, R177) are the spec's
inferences. The magic bytes of the header are log entry 2. -/
def Obligations.EveryStepKeepsTheStreamInvariant : Prop :=
  ∀ s t : State, s.Inv → s.StreamInv → step s = .next t → t.StreamInv

/-- R174 and R176, which the spec derives: the size of a complete stream, read from the 32-bit counter. -/
def Obligations.CompleteStreamSizeIsBounded : Prop :=
  ∀ s : State, s.Inv → s.StreamInv → s.phase = .done →
    s.outCount.toNat = s.out.length ∧ 23 ≤ s.outCount.toNat ∧
    s.outCount.toNat ≤ s.cfgWidth.toNat * s.cfgHeight.toNat * (s.cfgChannels.toNat + 1) + 22 ∧
    s.outCount.toNat ≤ 2000000017

/-! ### Whole encodes -/

/-- R117 (derived by the spec), R86: START and exactly the pixels of the buffer reach DONE, and `out` is header, well-formed ops that stand
for every pixel, terminator, the same whatever state the block was in before. (The magic bytes of the header are log entry
2.) -/
def Obligations.EncodeCompletesWhateverCameBefore : Prop :=
  ∀ (w h : Word) (ch cs : Byte) (buf : List Byte), ValidImage w h ch cs buf →
    ∃ ops : List Instr, (∀ i ∈ ops, i.wellFormed = true) ∧ (ops.map pixelCount).sum = w.toNat * h.toNat ∧
      ∀ s : State, s.phase ≠ .running →
        ∃ t, encodeRun w h ch cs buf s = .next t ∧ t.phase = .done ∧ t.errCode = .none ∧ t.run = 0 ∧
          t.pos.toNat = w.toNat * h.toNat ∧
          t.out = header ⟨w, h, ch, cs, BitVec.ofNat 64 buf.length⟩ ++ ops.flatMap encode ++
            [0, 0, 0, 0, 0, 0, 0, 1]

/-- R117 (derived by the spec), second half: after a START that fails, `out` is empty, the phase is ERROR, and no PIXEL is accepted. That
`pos`, `prev`, `run` and `cache` are kept is R202; 93 I13 says any value (log entry 10). That
exactly 400,000,000 pixels is refused is D5 (log entry 4). -/
def Obligations.FailedEncodeProducesNothing : Prop :=
  ∀ (w h : Word) (ch cs : Byte) (buf : List Byte) (s : State), buf.length < 2 ^ 64 → s.phase ≠ .running →
    ¬ ValidImage w h ch cs buf →
    ∃ t, encodeRun w h ch cs buf s = .next t ∧ t.phase = .error ∧ t.errCode ≠ .none ∧ t.out = [] ∧ t.outCount = 0 ∧
      t.pos = s.pos ∧ t.prev = s.prev ∧ t.run = s.run ∧ t.cache = s.cache

/-- R178, which the spec derives: `k` repeats of `prev` give `k div 62` RUN ops of 62 and leave `k mod 62` pending; the last pixel, or a pixel that
breaks the run, flushes the rest as one RUN op. -/
def Obligations.RepeatsBecomeRunsOf62AndOneRest : Prop :=
  ∀ (k : Nat) (p q : Pixel) (s : State), s.Inv → s.phase = .running → s.run = 0 → 1 ≤ k →
    normalise s.cfgChannels p = s.prev →
    (s.pos.toNat + k < s.total →
      ∃ t, pixels (List.replicate k p) s = .next t ∧ t.phase = .running ∧ t.run.toNat = k % 62 ∧
        t.pos.toNat = s.pos.toNat + k ∧ t.prev = s.prev ∧ t.cache = s.cache ∧
        t.out = s.out ++ List.replicate (k / 62) 0xFD ∧
        (normalise s.cfgChannels q ≠ s.prev →
          ∃ u, pixel q t = .next u ∧
            u.out = t.out ++ (if k % 62 ≠ 0 then [runByte (k % 62)] else []) ++
              encode (chooseOp (normalise s.cfgChannels q) s) ++
              (if s.pos.toNat + k + 1 = s.total then [0, 0, 0, 0, 0, 0, 0, 1] else []))) ∧
    (s.pos.toNat + k = s.total →
      ∃ t, pixels (List.replicate k p) s = .next t ∧ t.phase = .done ∧ t.run = 0 ∧
        t.out = s.out ++ List.replicate (k / 62) 0xFD ++ (if k % 62 ≠ 0 then [runByte (k % 62)] else []) ++
          [0, 0, 0, 0, 0, 0, 0, 1])

/-- R36 item 4: a pending run counts pixels at the end of the input that all equal `prev`. -/
def Obligations.PendingRunCountsEqualPixels : Prop :=
  ∀ (a : StartArgs) (ps : List Pixel) (s t : State), s.phase ≠ .running → validate a = .none →
    pixels ps (start a s) = .next t → t.phase = .running →
    t.run.toNat ≤ ps.length ∧
    ∀ p ∈ ps.drop (ps.length - t.run.toNat), normalise a.channels p = t.prev

/-- R189, R191, R193, R194: an op chosen for a pixel stands for exactly that pixel, and the decoder that applies it has the
encoder's cache and previous pixel again. (The op's pixel from its operands is log entry 7.) -/
def Obligations.DecoderMirrorsEveryChosenOp : Prop :=
  ∀ (px : Pixel) (s t : State) (d : Decoder), d.prev = s.prev → d.cache = s.cache →
    exec (chooseOp px s) s = .next t →
    d.pixelOf (chooseOp px s) = px ∧ t.prev = px ∧
    d.apply false (chooseOp px s) = ⟨t.prev, t.cache, d.pixels ++ [px]⟩

/-- R180 (and R197, which the spec derives): decoding a complete stream gives the image back. -/
def Obligations.DecodingTheStreamReturnsTheImage : Prop :=
  ∀ (w h : Word) (ch cs : Byte) (buf : List Byte) (s t : State), ValidImage w h ch cs buf → s.phase ≠ .running →
    encodeRun w h ch cs buf s = .next t → decodeStream false t.out = some ⟨w, h, ch, cs, buf⟩

/-- R190, which the spec derives: a decoder that also stores after INDEX and RUN decodes every stream of the block to the same image. -/
def Obligations.DecoderThatStoresAfterEveryOpAgrees : Prop :=
  ∀ (w h : Word) (ch cs : Byte) (buf : List Byte) (s t : State), ValidImage w h ch cs buf → s.phase ≠ .running →
    encodeRun w h ch cs buf s = .next t → decodeStream true t.out = some ⟨w, h, ch, cs, buf⟩

/-- R179, which the spec derives: in a complete stream the terminator's pattern occurs only at the last 8 bytes. -/
def Obligations.TerminatorPatternOccursOnlyAtTheEnd : Prop :=
  ∀ (w h : Word) (ch cs : Byte) (buf : List Byte) (s t : State), ValidImage w h ch cs buf → s.phase ≠ .running →
    encodeRun w h ch cs buf s = .next t →
    ∀ k : Nat, (t.out.drop k).take 8 = [0, 0, 0, 0, 0, 0, 0, 1] → k + 8 = t.out.length

/-- R235, R232: a host that offers all the remaining pixels and takes every byte brings the block to DONE in a bounded number
of steps at the ports, with the output drained and the same stream as the bare command sequence. (One beat a step is the
model's choice: log entry 6.) -/
def Obligations.BlockReachesDoneAtThePorts : Prop :=
  ∀ (ps : List Pixel) (rest : List Ports) (s : State), s.Inv → s.phase = .running → s.outPending = [] →
    s.inputs = ps.flatMap offerAndDrain ++ rest → s.pos.toNat + ps.length = s.total →
    ∃ t u : State, Host.Core.run Sys2Proof.core (15 * ps.length) s = .next t ∧ pixels ps s = .next u ∧
      t.phase = .done ∧ t.outPending = [] ∧ t.inputs = rest ∧ t.out = u.out
end

