-- ==== Sys2Proof/Laws/State.lean ====
section
/-! SUPPORT. The fields of the state after each named operation, one lemma per field and operation, true by `rfl`; and the
functions of the state that an operation leaves alone. -/

namespace Sys2Proof.Machine

@[simp] theorem State.emit_phase (s : State) (bytes : List Byte) : (s.emit bytes).phase = s.phase := rfl
@[simp] theorem State.emit_errCode (s : State) (bytes : List Byte) : (s.emit bytes).errCode = s.errCode := rfl
@[simp] theorem State.emit_cfgWidth (s : State) (bytes : List Byte) : (s.emit bytes).cfgWidth = s.cfgWidth := rfl
@[simp] theorem State.emit_cfgHeight (s : State) (bytes : List Byte) : (s.emit bytes).cfgHeight = s.cfgHeight := rfl
@[simp] theorem State.emit_cfgChannels (s : State) (bytes : List Byte) : (s.emit bytes).cfgChannels = s.cfgChannels := rfl
@[simp] theorem State.emit_cfgColorspace (s : State) (bytes : List Byte) : (s.emit bytes).cfgColorspace = s.cfgColorspace := rfl
@[simp] theorem State.emit_cfgInLen (s : State) (bytes : List Byte) : (s.emit bytes).cfgInLen = s.cfgInLen := rfl
@[simp] theorem State.emit_pos (s : State) (bytes : List Byte) : (s.emit bytes).pos = s.pos := rfl
@[simp] theorem State.emit_prev (s : State) (bytes : List Byte) : (s.emit bytes).prev = s.prev := rfl
@[simp] theorem State.emit_run (s : State) (bytes : List Byte) : (s.emit bytes).run = s.run := rfl
@[simp] theorem State.emit_cache (s : State) (bytes : List Byte) : (s.emit bytes).cache = s.cache := rfl
@[simp] theorem State.emit_out (s : State) (bytes : List Byte) : (s.emit bytes).out = s.out ++ bytes := rfl
@[simp] theorem State.emit_outCount (s : State) (bytes : List Byte) : (s.emit bytes).outCount = s.outCount + BitVec.ofNat 32 bytes.length := rfl
@[simp] theorem State.emit_outPending (s : State) (bytes : List Byte) : (s.emit bytes).outPending = s.outPending ++ bytes := rfl
@[simp] theorem State.emit_inputs (s : State) (bytes : List Byte) : (s.emit bytes).inputs = s.inputs := rfl
@[simp] theorem State.emit_total (s : State) (bytes : List Byte) : (s.emit bytes).total = s.total := rfl
@[simp] theorem State.emit_latched (s : State) (bytes : List Byte) : (s.emit bytes).latched = s.latched := rfl
@[simp] theorem State.emit_cacheAt (s : State) (bytes : List Byte) (k : Slot) : (s.emit bytes).cacheAt k = s.cacheAt k := rfl

@[simp] theorem State.cacheWrite_phase (s : State) (slot : Slot) (p : Pixel) : (s.cacheWrite slot p).phase = s.phase := rfl
@[simp] theorem State.cacheWrite_errCode (s : State) (slot : Slot) (p : Pixel) : (s.cacheWrite slot p).errCode = s.errCode := rfl
@[simp] theorem State.cacheWrite_cfgWidth (s : State) (slot : Slot) (p : Pixel) : (s.cacheWrite slot p).cfgWidth = s.cfgWidth := rfl
@[simp] theorem State.cacheWrite_cfgHeight (s : State) (slot : Slot) (p : Pixel) : (s.cacheWrite slot p).cfgHeight = s.cfgHeight := rfl
@[simp] theorem State.cacheWrite_cfgChannels (s : State) (slot : Slot) (p : Pixel) : (s.cacheWrite slot p).cfgChannels = s.cfgChannels := rfl
@[simp] theorem State.cacheWrite_cfgColorspace (s : State) (slot : Slot) (p : Pixel) : (s.cacheWrite slot p).cfgColorspace = s.cfgColorspace := rfl
@[simp] theorem State.cacheWrite_cfgInLen (s : State) (slot : Slot) (p : Pixel) : (s.cacheWrite slot p).cfgInLen = s.cfgInLen := rfl
@[simp] theorem State.cacheWrite_pos (s : State) (slot : Slot) (p : Pixel) : (s.cacheWrite slot p).pos = s.pos := rfl
@[simp] theorem State.cacheWrite_prev (s : State) (slot : Slot) (p : Pixel) : (s.cacheWrite slot p).prev = s.prev := rfl
@[simp] theorem State.cacheWrite_run (s : State) (slot : Slot) (p : Pixel) : (s.cacheWrite slot p).run = s.run := rfl
@[simp] theorem State.cacheWrite_cache (s : State) (slot : Slot) (p : Pixel) : (s.cacheWrite slot p).cache = s.cache.set slot.val p := rfl
@[simp] theorem State.cacheWrite_out (s : State) (slot : Slot) (p : Pixel) : (s.cacheWrite slot p).out = s.out := rfl
@[simp] theorem State.cacheWrite_outCount (s : State) (slot : Slot) (p : Pixel) : (s.cacheWrite slot p).outCount = s.outCount := rfl
@[simp] theorem State.cacheWrite_outPending (s : State) (slot : Slot) (p : Pixel) : (s.cacheWrite slot p).outPending = s.outPending := rfl
@[simp] theorem State.cacheWrite_inputs (s : State) (slot : Slot) (p : Pixel) : (s.cacheWrite slot p).inputs = s.inputs := rfl
@[simp] theorem State.cacheWrite_total (s : State) (slot : Slot) (p : Pixel) : (s.cacheWrite slot p).total = s.total := rfl
@[simp] theorem State.cacheWrite_latched (s : State) (slot : Slot) (p : Pixel) : (s.cacheWrite slot p).latched = s.latched := rfl

@[simp] theorem State.setPrev_phase (s : State) (p : Pixel) : (s.setPrev p).phase = s.phase := rfl
@[simp] theorem State.setPrev_errCode (s : State) (p : Pixel) : (s.setPrev p).errCode = s.errCode := rfl
@[simp] theorem State.setPrev_cfgWidth (s : State) (p : Pixel) : (s.setPrev p).cfgWidth = s.cfgWidth := rfl
@[simp] theorem State.setPrev_cfgHeight (s : State) (p : Pixel) : (s.setPrev p).cfgHeight = s.cfgHeight := rfl
@[simp] theorem State.setPrev_cfgChannels (s : State) (p : Pixel) : (s.setPrev p).cfgChannels = s.cfgChannels := rfl
@[simp] theorem State.setPrev_cfgColorspace (s : State) (p : Pixel) : (s.setPrev p).cfgColorspace = s.cfgColorspace := rfl
@[simp] theorem State.setPrev_cfgInLen (s : State) (p : Pixel) : (s.setPrev p).cfgInLen = s.cfgInLen := rfl
@[simp] theorem State.setPrev_pos (s : State) (p : Pixel) : (s.setPrev p).pos = s.pos := rfl
@[simp] theorem State.setPrev_prev (s : State) (p : Pixel) : (s.setPrev p).prev = p := rfl
@[simp] theorem State.setPrev_run (s : State) (p : Pixel) : (s.setPrev p).run = s.run := rfl
@[simp] theorem State.setPrev_cache (s : State) (p : Pixel) : (s.setPrev p).cache = s.cache := rfl
@[simp] theorem State.setPrev_out (s : State) (p : Pixel) : (s.setPrev p).out = s.out := rfl
@[simp] theorem State.setPrev_outCount (s : State) (p : Pixel) : (s.setPrev p).outCount = s.outCount := rfl
@[simp] theorem State.setPrev_outPending (s : State) (p : Pixel) : (s.setPrev p).outPending = s.outPending := rfl
@[simp] theorem State.setPrev_inputs (s : State) (p : Pixel) : (s.setPrev p).inputs = s.inputs := rfl
@[simp] theorem State.setPrev_total (s : State) (p : Pixel) : (s.setPrev p).total = s.total := rfl
@[simp] theorem State.setPrev_latched (s : State) (p : Pixel) : (s.setPrev p).latched = s.latched := rfl
@[simp] theorem State.setPrev_cacheAt (s : State) (p : Pixel) (k : Slot) : (s.setPrev p).cacheAt k = s.cacheAt k := rfl

@[simp] theorem State.setRun_phase (s : State) (n : BitVec 6) : (s.setRun n).phase = s.phase := rfl
@[simp] theorem State.setRun_errCode (s : State) (n : BitVec 6) : (s.setRun n).errCode = s.errCode := rfl
@[simp] theorem State.setRun_cfgWidth (s : State) (n : BitVec 6) : (s.setRun n).cfgWidth = s.cfgWidth := rfl
@[simp] theorem State.setRun_cfgHeight (s : State) (n : BitVec 6) : (s.setRun n).cfgHeight = s.cfgHeight := rfl
@[simp] theorem State.setRun_cfgChannels (s : State) (n : BitVec 6) : (s.setRun n).cfgChannels = s.cfgChannels := rfl
@[simp] theorem State.setRun_cfgColorspace (s : State) (n : BitVec 6) : (s.setRun n).cfgColorspace = s.cfgColorspace := rfl
@[simp] theorem State.setRun_cfgInLen (s : State) (n : BitVec 6) : (s.setRun n).cfgInLen = s.cfgInLen := rfl
@[simp] theorem State.setRun_pos (s : State) (n : BitVec 6) : (s.setRun n).pos = s.pos := rfl
@[simp] theorem State.setRun_prev (s : State) (n : BitVec 6) : (s.setRun n).prev = s.prev := rfl
@[simp] theorem State.setRun_run (s : State) (n : BitVec 6) : (s.setRun n).run = n := rfl
@[simp] theorem State.setRun_cache (s : State) (n : BitVec 6) : (s.setRun n).cache = s.cache := rfl
@[simp] theorem State.setRun_out (s : State) (n : BitVec 6) : (s.setRun n).out = s.out := rfl
@[simp] theorem State.setRun_outCount (s : State) (n : BitVec 6) : (s.setRun n).outCount = s.outCount := rfl
@[simp] theorem State.setRun_outPending (s : State) (n : BitVec 6) : (s.setRun n).outPending = s.outPending := rfl
@[simp] theorem State.setRun_inputs (s : State) (n : BitVec 6) : (s.setRun n).inputs = s.inputs := rfl
@[simp] theorem State.setRun_total (s : State) (n : BitVec 6) : (s.setRun n).total = s.total := rfl
@[simp] theorem State.setRun_latched (s : State) (n : BitVec 6) : (s.setRun n).latched = s.latched := rfl
@[simp] theorem State.setRun_cacheAt (s : State) (n : BitVec 6) (k : Slot) : (s.setRun n).cacheAt k = s.cacheAt k := rfl

@[simp] theorem State.encodeMissed_phase (s : State) (px : Pixel) (i : Instr) : (s.encodeMissed px i).phase = s.phase := rfl
@[simp] theorem State.encodeMissed_errCode (s : State) (px : Pixel) (i : Instr) : (s.encodeMissed px i).errCode = s.errCode := rfl
@[simp] theorem State.encodeMissed_cfgWidth (s : State) (px : Pixel) (i : Instr) : (s.encodeMissed px i).cfgWidth = s.cfgWidth := rfl
@[simp] theorem State.encodeMissed_cfgHeight (s : State) (px : Pixel) (i : Instr) : (s.encodeMissed px i).cfgHeight = s.cfgHeight := rfl
@[simp] theorem State.encodeMissed_cfgChannels (s : State) (px : Pixel) (i : Instr) : (s.encodeMissed px i).cfgChannels = s.cfgChannels := rfl
@[simp] theorem State.encodeMissed_cfgColorspace (s : State) (px : Pixel) (i : Instr) : (s.encodeMissed px i).cfgColorspace = s.cfgColorspace := rfl
@[simp] theorem State.encodeMissed_cfgInLen (s : State) (px : Pixel) (i : Instr) : (s.encodeMissed px i).cfgInLen = s.cfgInLen := rfl
@[simp] theorem State.encodeMissed_pos (s : State) (px : Pixel) (i : Instr) : (s.encodeMissed px i).pos = s.pos := rfl
@[simp] theorem State.encodeMissed_prev (s : State) (px : Pixel) (i : Instr) : (s.encodeMissed px i).prev = px := rfl
@[simp] theorem State.encodeMissed_run (s : State) (px : Pixel) (i : Instr) : (s.encodeMissed px i).run = s.run := rfl
@[simp] theorem State.encodeMissed_cache (s : State) (px : Pixel) (i : Instr) : (s.encodeMissed px i).cache = s.cache.set (hash6 px).val px := rfl
@[simp] theorem State.encodeMissed_out (s : State) (px : Pixel) (i : Instr) : (s.encodeMissed px i).out = s.out ++ encode i := rfl
@[simp] theorem State.encodeMissed_outCount (s : State) (px : Pixel) (i : Instr) : (s.encodeMissed px i).outCount = s.outCount + BitVec.ofNat 32 (encode i).length := rfl
@[simp] theorem State.encodeMissed_outPending (s : State) (px : Pixel) (i : Instr) : (s.encodeMissed px i).outPending = s.outPending ++ encode i := rfl
@[simp] theorem State.encodeMissed_inputs (s : State) (px : Pixel) (i : Instr) : (s.encodeMissed px i).inputs = s.inputs := rfl
@[simp] theorem State.encodeMissed_total (s : State) (px : Pixel) (i : Instr) : (s.encodeMissed px i).total = s.total := rfl
@[simp] theorem State.encodeMissed_latched (s : State) (px : Pixel) (i : Instr) : (s.encodeMissed px i).latched = s.latched := rfl

@[simp] theorem State.latch_phase (s : State) (a : StartArgs) : (s.latch a).phase = s.phase := rfl
@[simp] theorem State.latch_errCode (s : State) (a : StartArgs) : (s.latch a).errCode = s.errCode := rfl
@[simp] theorem State.latch_cfgWidth (s : State) (a : StartArgs) : (s.latch a).cfgWidth = a.width := rfl
@[simp] theorem State.latch_cfgHeight (s : State) (a : StartArgs) : (s.latch a).cfgHeight = a.height := rfl
@[simp] theorem State.latch_cfgChannels (s : State) (a : StartArgs) : (s.latch a).cfgChannels = a.channels := rfl
@[simp] theorem State.latch_cfgColorspace (s : State) (a : StartArgs) : (s.latch a).cfgColorspace = a.colorspace := rfl
@[simp] theorem State.latch_cfgInLen (s : State) (a : StartArgs) : (s.latch a).cfgInLen = a.inLen := rfl
@[simp] theorem State.latch_pos (s : State) (a : StartArgs) : (s.latch a).pos = s.pos := rfl
@[simp] theorem State.latch_prev (s : State) (a : StartArgs) : (s.latch a).prev = s.prev := rfl
@[simp] theorem State.latch_run (s : State) (a : StartArgs) : (s.latch a).run = s.run := rfl
@[simp] theorem State.latch_cache (s : State) (a : StartArgs) : (s.latch a).cache = s.cache := rfl
@[simp] theorem State.latch_out (s : State) (a : StartArgs) : (s.latch a).out = s.out := rfl
@[simp] theorem State.latch_outCount (s : State) (a : StartArgs) : (s.latch a).outCount = s.outCount := rfl
@[simp] theorem State.latch_outPending (s : State) (a : StartArgs) : (s.latch a).outPending = s.outPending := rfl
@[simp] theorem State.latch_inputs (s : State) (a : StartArgs) : (s.latch a).inputs = s.inputs := rfl
@[simp] theorem State.latch_total (s : State) (a : StartArgs) : (s.latch a).total = a.width.toNat * a.height.toNat := rfl
@[simp] theorem State.latch_latched (s : State) (a : StartArgs) : (s.latch a).latched = a := rfl
@[simp] theorem State.latch_cacheAt (s : State) (a : StartArgs) (k : Slot) : (s.latch a).cacheAt k = s.cacheAt k := rfl

@[simp] theorem State.clearOut_phase (s : State) : (s.clearOut).phase = s.phase := rfl
@[simp] theorem State.clearOut_errCode (s : State) : (s.clearOut).errCode = s.errCode := rfl
@[simp] theorem State.clearOut_cfgWidth (s : State) : (s.clearOut).cfgWidth = s.cfgWidth := rfl
@[simp] theorem State.clearOut_cfgHeight (s : State) : (s.clearOut).cfgHeight = s.cfgHeight := rfl
@[simp] theorem State.clearOut_cfgChannels (s : State) : (s.clearOut).cfgChannels = s.cfgChannels := rfl
@[simp] theorem State.clearOut_cfgColorspace (s : State) : (s.clearOut).cfgColorspace = s.cfgColorspace := rfl
@[simp] theorem State.clearOut_cfgInLen (s : State) : (s.clearOut).cfgInLen = s.cfgInLen := rfl
@[simp] theorem State.clearOut_pos (s : State) : (s.clearOut).pos = s.pos := rfl
@[simp] theorem State.clearOut_prev (s : State) : (s.clearOut).prev = s.prev := rfl
@[simp] theorem State.clearOut_run (s : State) : (s.clearOut).run = s.run := rfl
@[simp] theorem State.clearOut_cache (s : State) : (s.clearOut).cache = s.cache := rfl
@[simp] theorem State.clearOut_out (s : State) : (s.clearOut).out = [] := rfl
@[simp] theorem State.clearOut_outCount (s : State) : (s.clearOut).outCount = 0 := rfl
@[simp] theorem State.clearOut_outPending (s : State) : (s.clearOut).outPending = s.outPending := rfl
@[simp] theorem State.clearOut_inputs (s : State) : (s.clearOut).inputs = s.inputs := rfl
@[simp] theorem State.clearOut_total (s : State) : (s.clearOut).total = s.total := rfl
@[simp] theorem State.clearOut_latched (s : State) : (s.clearOut).latched = s.latched := rfl
@[simp] theorem State.clearOut_cacheAt (s : State) (k : Slot) : (s.clearOut).cacheAt k = s.cacheAt k := rfl

@[simp] theorem State.raiseError_phase (s : State) (code : ErrCode) : (s.raiseError code).phase = .error := rfl
@[simp] theorem State.raiseError_errCode (s : State) (code : ErrCode) : (s.raiseError code).errCode = code := rfl
@[simp] theorem State.raiseError_cfgWidth (s : State) (code : ErrCode) : (s.raiseError code).cfgWidth = s.cfgWidth := rfl
@[simp] theorem State.raiseError_cfgHeight (s : State) (code : ErrCode) : (s.raiseError code).cfgHeight = s.cfgHeight := rfl
@[simp] theorem State.raiseError_cfgChannels (s : State) (code : ErrCode) : (s.raiseError code).cfgChannels = s.cfgChannels := rfl
@[simp] theorem State.raiseError_cfgColorspace (s : State) (code : ErrCode) : (s.raiseError code).cfgColorspace = s.cfgColorspace := rfl
@[simp] theorem State.raiseError_cfgInLen (s : State) (code : ErrCode) : (s.raiseError code).cfgInLen = s.cfgInLen := rfl
@[simp] theorem State.raiseError_pos (s : State) (code : ErrCode) : (s.raiseError code).pos = s.pos := rfl
@[simp] theorem State.raiseError_prev (s : State) (code : ErrCode) : (s.raiseError code).prev = s.prev := rfl
@[simp] theorem State.raiseError_run (s : State) (code : ErrCode) : (s.raiseError code).run = s.run := rfl
@[simp] theorem State.raiseError_cache (s : State) (code : ErrCode) : (s.raiseError code).cache = s.cache := rfl
@[simp] theorem State.raiseError_out (s : State) (code : ErrCode) : (s.raiseError code).out = s.out := rfl
@[simp] theorem State.raiseError_outCount (s : State) (code : ErrCode) : (s.raiseError code).outCount = s.outCount := rfl
@[simp] theorem State.raiseError_outPending (s : State) (code : ErrCode) : (s.raiseError code).outPending = s.outPending := rfl
@[simp] theorem State.raiseError_inputs (s : State) (code : ErrCode) : (s.raiseError code).inputs = s.inputs := rfl
@[simp] theorem State.raiseError_total (s : State) (code : ErrCode) : (s.raiseError code).total = s.total := rfl
@[simp] theorem State.raiseError_latched (s : State) (code : ErrCode) : (s.raiseError code).latched = s.latched := rfl
@[simp] theorem State.raiseError_cacheAt (s : State) (code : ErrCode) (k : Slot) : (s.raiseError code).cacheAt k = s.cacheAt k := rfl

@[simp] theorem State.initRunning_phase (s : State) : (s.initRunning).phase = s.phase := rfl
@[simp] theorem State.initRunning_errCode (s : State) : (s.initRunning).errCode = .none := rfl
@[simp] theorem State.initRunning_cfgWidth (s : State) : (s.initRunning).cfgWidth = s.cfgWidth := rfl
@[simp] theorem State.initRunning_cfgHeight (s : State) : (s.initRunning).cfgHeight = s.cfgHeight := rfl
@[simp] theorem State.initRunning_cfgChannels (s : State) : (s.initRunning).cfgChannels = s.cfgChannels := rfl
@[simp] theorem State.initRunning_cfgColorspace (s : State) : (s.initRunning).cfgColorspace = s.cfgColorspace := rfl
@[simp] theorem State.initRunning_cfgInLen (s : State) : (s.initRunning).cfgInLen = s.cfgInLen := rfl
@[simp] theorem State.initRunning_pos (s : State) : (s.initRunning).pos = 0 := rfl
@[simp] theorem State.initRunning_prev (s : State) : (s.initRunning).prev = Config.pixelInit := rfl
@[simp] theorem State.initRunning_run (s : State) : (s.initRunning).run = 0 := rfl
@[simp] theorem State.initRunning_cache (s : State) : (s.initRunning).cache = emptyCache := rfl
@[simp] theorem State.initRunning_out (s : State) : (s.initRunning).out = s.out := rfl
@[simp] theorem State.initRunning_outCount (s : State) : (s.initRunning).outCount = s.outCount := rfl
@[simp] theorem State.initRunning_outPending (s : State) : (s.initRunning).outPending = s.outPending := rfl
@[simp] theorem State.initRunning_inputs (s : State) : (s.initRunning).inputs = s.inputs := rfl
@[simp] theorem State.initRunning_total (s : State) : (s.initRunning).total = s.total := rfl
@[simp] theorem State.initRunning_latched (s : State) : (s.initRunning).latched = s.latched := rfl

@[simp] theorem State.setPhase_phase (s : State) (p : Phase) : (s.setPhase p).phase = p := rfl
@[simp] theorem State.setPhase_errCode (s : State) (p : Phase) : (s.setPhase p).errCode = s.errCode := rfl
@[simp] theorem State.setPhase_cfgWidth (s : State) (p : Phase) : (s.setPhase p).cfgWidth = s.cfgWidth := rfl
@[simp] theorem State.setPhase_cfgHeight (s : State) (p : Phase) : (s.setPhase p).cfgHeight = s.cfgHeight := rfl
@[simp] theorem State.setPhase_cfgChannels (s : State) (p : Phase) : (s.setPhase p).cfgChannels = s.cfgChannels := rfl
@[simp] theorem State.setPhase_cfgColorspace (s : State) (p : Phase) : (s.setPhase p).cfgColorspace = s.cfgColorspace := rfl
@[simp] theorem State.setPhase_cfgInLen (s : State) (p : Phase) : (s.setPhase p).cfgInLen = s.cfgInLen := rfl
@[simp] theorem State.setPhase_pos (s : State) (p : Phase) : (s.setPhase p).pos = s.pos := rfl
@[simp] theorem State.setPhase_prev (s : State) (p : Phase) : (s.setPhase p).prev = s.prev := rfl
@[simp] theorem State.setPhase_run (s : State) (p : Phase) : (s.setPhase p).run = s.run := rfl
@[simp] theorem State.setPhase_cache (s : State) (p : Phase) : (s.setPhase p).cache = s.cache := rfl
@[simp] theorem State.setPhase_out (s : State) (p : Phase) : (s.setPhase p).out = s.out := rfl
@[simp] theorem State.setPhase_outCount (s : State) (p : Phase) : (s.setPhase p).outCount = s.outCount := rfl
@[simp] theorem State.setPhase_outPending (s : State) (p : Phase) : (s.setPhase p).outPending = s.outPending := rfl
@[simp] theorem State.setPhase_inputs (s : State) (p : Phase) : (s.setPhase p).inputs = s.inputs := rfl
@[simp] theorem State.setPhase_total (s : State) (p : Phase) : (s.setPhase p).total = s.total := rfl
@[simp] theorem State.setPhase_latched (s : State) (p : Phase) : (s.setPhase p).latched = s.latched := rfl
@[simp] theorem State.setPhase_cacheAt (s : State) (p : Phase) (k : Slot) : (s.setPhase p).cacheAt k = s.cacheAt k := rfl

@[simp] theorem State.advancePos_phase (s : State) : (s.advancePos).phase = s.phase := rfl
@[simp] theorem State.advancePos_errCode (s : State) : (s.advancePos).errCode = s.errCode := rfl
@[simp] theorem State.advancePos_cfgWidth (s : State) : (s.advancePos).cfgWidth = s.cfgWidth := rfl
@[simp] theorem State.advancePos_cfgHeight (s : State) : (s.advancePos).cfgHeight = s.cfgHeight := rfl
@[simp] theorem State.advancePos_cfgChannels (s : State) : (s.advancePos).cfgChannels = s.cfgChannels := rfl
@[simp] theorem State.advancePos_cfgColorspace (s : State) : (s.advancePos).cfgColorspace = s.cfgColorspace := rfl
@[simp] theorem State.advancePos_cfgInLen (s : State) : (s.advancePos).cfgInLen = s.cfgInLen := rfl
@[simp] theorem State.advancePos_pos (s : State) : (s.advancePos).pos = s.pos + 1 := rfl
@[simp] theorem State.advancePos_prev (s : State) : (s.advancePos).prev = s.prev := rfl
@[simp] theorem State.advancePos_run (s : State) : (s.advancePos).run = s.run := rfl
@[simp] theorem State.advancePos_cache (s : State) : (s.advancePos).cache = s.cache := rfl
@[simp] theorem State.advancePos_out (s : State) : (s.advancePos).out = s.out := rfl
@[simp] theorem State.advancePos_outCount (s : State) : (s.advancePos).outCount = s.outCount := rfl
@[simp] theorem State.advancePos_outPending (s : State) : (s.advancePos).outPending = s.outPending := rfl
@[simp] theorem State.advancePos_inputs (s : State) : (s.advancePos).inputs = s.inputs := rfl
@[simp] theorem State.advancePos_total (s : State) : (s.advancePos).total = s.total := rfl
@[simp] theorem State.advancePos_latched (s : State) : (s.advancePos).latched = s.latched := rfl
@[simp] theorem State.advancePos_cacheAt (s : State) (k : Slot) : (s.advancePos).cacheAt k = s.cacheAt k := rfl

@[simp] theorem State.accumulate_phase (s : State) : (s.accumulate).phase = s.phase := rfl
@[simp] theorem State.accumulate_errCode (s : State) : (s.accumulate).errCode = s.errCode := rfl
@[simp] theorem State.accumulate_cfgWidth (s : State) : (s.accumulate).cfgWidth = s.cfgWidth := rfl
@[simp] theorem State.accumulate_cfgHeight (s : State) : (s.accumulate).cfgHeight = s.cfgHeight := rfl
@[simp] theorem State.accumulate_cfgChannels (s : State) : (s.accumulate).cfgChannels = s.cfgChannels := rfl
@[simp] theorem State.accumulate_cfgColorspace (s : State) : (s.accumulate).cfgColorspace = s.cfgColorspace := rfl
@[simp] theorem State.accumulate_cfgInLen (s : State) : (s.accumulate).cfgInLen = s.cfgInLen := rfl
@[simp] theorem State.accumulate_pos (s : State) : (s.accumulate).pos = s.pos := rfl
@[simp] theorem State.accumulate_prev (s : State) : (s.accumulate).prev = s.prev := rfl
@[simp] theorem State.accumulate_run (s : State) : (s.accumulate).run = s.run + 1 := rfl
@[simp] theorem State.accumulate_cache (s : State) : (s.accumulate).cache = s.cache := rfl
@[simp] theorem State.accumulate_out (s : State) : (s.accumulate).out = s.out := rfl
@[simp] theorem State.accumulate_outCount (s : State) : (s.accumulate).outCount = s.outCount := rfl
@[simp] theorem State.accumulate_outPending (s : State) : (s.accumulate).outPending = s.outPending := rfl
@[simp] theorem State.accumulate_inputs (s : State) : (s.accumulate).inputs = s.inputs := rfl
@[simp] theorem State.accumulate_total (s : State) : (s.accumulate).total = s.total := rfl
@[simp] theorem State.accumulate_latched (s : State) : (s.accumulate).latched = s.latched := rfl
@[simp] theorem State.accumulate_cacheAt (s : State) (k : Slot) : (s.accumulate).cacheAt k = s.cacheAt k := rfl

@[simp] theorem State.beat_phase (s : State) : (s.beat).phase = s.phase := rfl
@[simp] theorem State.beat_errCode (s : State) : (s.beat).errCode = s.errCode := rfl
@[simp] theorem State.beat_cfgWidth (s : State) : (s.beat).cfgWidth = s.cfgWidth := rfl
@[simp] theorem State.beat_cfgHeight (s : State) : (s.beat).cfgHeight = s.cfgHeight := rfl
@[simp] theorem State.beat_cfgChannels (s : State) : (s.beat).cfgChannels = s.cfgChannels := rfl
@[simp] theorem State.beat_cfgColorspace (s : State) : (s.beat).cfgColorspace = s.cfgColorspace := rfl
@[simp] theorem State.beat_cfgInLen (s : State) : (s.beat).cfgInLen = s.cfgInLen := rfl
@[simp] theorem State.beat_pos (s : State) : (s.beat).pos = s.pos := rfl
@[simp] theorem State.beat_prev (s : State) : (s.beat).prev = s.prev := rfl
@[simp] theorem State.beat_run (s : State) : (s.beat).run = s.run := rfl
@[simp] theorem State.beat_cache (s : State) : (s.beat).cache = s.cache := rfl
@[simp] theorem State.beat_out (s : State) : (s.beat).out = s.out := rfl
@[simp] theorem State.beat_outCount (s : State) : (s.beat).outCount = s.outCount := rfl
@[simp] theorem State.beat_outPending (s : State) : (s.beat).outPending = if s.ports.outReady then s.outPending.tail else s.outPending := rfl
@[simp] theorem State.beat_inputs (s : State) : (s.beat).inputs = s.inputs.tail := rfl
@[simp] theorem State.beat_total (s : State) : (s.beat).total = s.total := rfl
@[simp] theorem State.beat_latched (s : State) : (s.beat).latched = s.latched := rfl
@[simp] theorem State.beat_cacheAt (s : State) (k : Slot) : (s.beat).cacheAt k = s.cacheAt k := rfl

@[simp] theorem emptyCache_get (k : Slot) : emptyCache[k.val] = Config.cacheInit := by
  simp [emptyCache]

@[simp] theorem State.initRunning_cacheAt (s : State) (k : Slot) : s.initRunning.cacheAt k = Config.cacheInit :=
  emptyCache_get k

/-- The cache read port after a write (R52): the written slot gives the written pixel, every other slot what it gave. -/
theorem State.cacheAt_cacheWrite (s : State) (j k : Slot) (p : Pixel) :
    (s.cacheWrite j p).cacheAt k = if k = j then p else s.cacheAt k := by
  by_cases h : k = j
  · subst h; simp [State.cacheAt]
  · have : j.val ≠ k.val := fun e => h (Fin.ext e.symm)
    simp [State.cacheAt, h, Vector.getElem_set_ne, this]

theorem State.encodeMissed_cacheAt (s : State) (px : Pixel) (i : Instr) (k : Slot) :
    (s.encodeMissed px i).cacheAt k = if k = hash6 px then px else s.cacheAt k :=
  State.cacheAt_cacheWrite s (hash6 px) k px

@[simp] theorem State.reset_cacheAt (k : Slot) : State.reset.cacheAt k = Config.cacheInit := emptyCache_get k

end Sys2Proof.Machine
end

