-- ==== Sys2Proof/Laws/Ops.lean ====
section
/-! SUPPORT. One lemma per shared operation that says everything it can do: sequencing, each op's next state, the flush, the
repeat step, the op-selector step, START, the end of a PIXEL step, and the step at the ports. Provers cite these instead of
unfolding the machine. -/

namespace Sys2Proof.Machine

@[simp] theorem andThen_next (s : State) (f : State → Result) : andThen (.next s) f = f s := rfl

@[simp] theorem exec_index (slot : Slot) (s : State) :
    exec (.index slot) s = .next ((s.emit (encode (.index slot))).setPrev (s.cacheAt slot)) := rfl

@[simp] theorem exec_diff (dr dg db : Int) (s : State) :
    exec (.diff dr dg db) s = .next (s.encodeMissed (s.prev.addDeltas dr dg db) (.diff dr dg db)) := rfl

@[simp] theorem exec_luma (dg drg dbg : Int) (s : State) :
    exec (.luma dg drg dbg) s =
      .next (s.encodeMissed (s.prev.addDeltas (drg + dg) dg (dbg + dg)) (.luma dg drg dbg)) := rfl

@[simp] theorem exec_run (n : Nat) (s : State) :
    exec (.run n) s = .next ((s.emit (encode (.run n))).setRun 0) := rfl

@[simp] theorem exec_rgb (r g b : Byte) (s : State) :
    exec (.rgb r g b) s = .next (s.encodeMissed ⟨r, g, b, s.prev.a⟩ (.rgb r g b)) := rfl

@[simp] theorem exec_rgba (r g b a : Byte) (s : State) :
    exec (.rgba r g b a) s = .next (s.encodeMissed ⟨r, g, b, a⟩ (.rgba r g b a)) := rfl

/-- The state a flush leaves (R142). -/
theorem flush_cases (s : State) :
    (s.run = 0 ∧ flush s = .next s) ∨
      (s.run ≠ 0 ∧ flush s = .next ((s.emit (encode (.run s.run.toNat))).setRun 0)) := by
  unfold flush
  split
  · next h => exact .inl ⟨h, rfl⟩
  · next h => exact .inr ⟨h, rfl⟩

/-- The state a repeat of `prev` leaves (R140, R141). -/
theorem repeatStep_cases (s : State) :
    ((s.run + 1 = 62 ∨ s.pos.toNat + 1 = s.total) ∧
        repeatStep s = .next ((s.accumulate.emit (encode (.run (s.run + 1).toNat))).setRun 0)) ∨
      (s.run + 1 ≠ 62 ∧ s.pos.toNat + 1 ≠ s.total ∧ repeatStep s = .next s.accumulate) := by
  unfold repeatStep
  split
  · next h =>
    refine .inl ⟨?_, rfl⟩
    rcases Bool.or_eq_true _ _ ▸ h with h | h
    · exact .inl (of_decide_eq_true h)
    · exact .inr (of_decide_eq_true h)
  · next h =>
    rw [Bool.or_eq_true, not_or] at h
    exact .inr ⟨fun e => h.1 (decide_eq_true e), fun e => h.2 (decide_eq_true e), rfl⟩

/-- R150 rows 3 to 7: the conditions under which each op is chosen, in the order of the rows. -/
theorem chooseOp_cases (px : Pixel) (s : State) :
    (s.cacheAt (hash6 px) = px ∧ chooseOp px s = .index (hash6 px)) ∨
      (s.cacheAt (hash6 px) ≠ px ∧ px.a ≠ s.prev.a ∧ chooseOp px s = .rgba px.r px.g px.b px.a) ∨
      (s.cacheAt (hash6 px) ≠ px ∧ px.a = s.prev.a ∧ s.diffOk px = true ∧
        chooseOp px s = .diff (deltaRed px s.prev) (deltaGreen px s.prev) (deltaBlue px s.prev)) ∨
      (s.cacheAt (hash6 px) ≠ px ∧ px.a = s.prev.a ∧ s.diffOk px = false ∧ s.lumaOk px = true ∧
        chooseOp px s = .luma (deltaGreen px s.prev) (relRed px s.prev) (relBlue px s.prev)) ∨
      (s.cacheAt (hash6 px) ≠ px ∧ px.a = s.prev.a ∧ s.diffOk px = false ∧ s.lumaOk px = false ∧
        chooseOp px s = .rgb px.r px.g px.b) := by
  by_cases h1 : s.cacheAt (hash6 px) = px
  · exact .inl ⟨h1, if_pos (decide_eq_true h1)⟩
  have n1 : ¬ (s.hit px = true) := fun e => h1 (of_decide_eq_true e)
  by_cases h2 : px.a = s.prev.a
  · have n2 : ¬ ((!s.alphaEq px) = true) := by simp [State.alphaEq, h2]
    cases h3 : s.diffOk px
    · cases h4 : s.lumaOk px
      · exact .inr (.inr (.inr (.inr ⟨h1, h2, rfl, rfl, by simp [chooseOp, n1, n2, h3, h4]⟩)))
      · exact .inr (.inr (.inr (.inl ⟨h1, h2, rfl, rfl, by simp [chooseOp, n1, n2, h3, h4]⟩)))
    · exact .inr (.inr (.inl ⟨h1, h2, rfl, by simp [chooseOp, n1, n2, h3]⟩))
  · have n2 : (!s.alphaEq px) = true := by simp [State.alphaEq, h2]
    exact .inr (.inl ⟨h1, h2, by simp [chooseOp, n1, n2]⟩)

/-- The choice reads only `prev` and the cache, so a flush before it changes nothing. -/
theorem chooseOp_congr (px : Pixel) {s t : State} (hp : t.prev = s.prev) (hc : t.cache = s.cache) :
    chooseOp px t = chooseOp px s := by
  unfold chooseOp State.hit State.alphaEq State.diffOk State.lumaOk State.cacheAt
  rw [hp, hc]

/-- An op always answers a next state. -/
theorem exec_answers (i : Instr) (s : State) : ∃ t, exec i s = .next t := by
  cases i <;> exact ⟨_, rfl⟩

/-- START outside RUNNING (R110): a valid description begins an encode, any other raises its error. -/
theorem start_cases (a : StartArgs) (s : State) (h : s.phase ≠ .running) :
    (validate a = .none ∧ start a s = ((s.latch a).clearOut).beginEncode a) ∨
      (validate a ≠ .none ∧ start a s = ((s.latch a).clearOut).raiseError (validate a)) := by
  unfold start
  rw [if_neg h]
  cases validate a <;> simp

/-- START in RUNNING is not accepted (R104). -/
theorem start_running (a : StartArgs) (s : State) (h : s.phase = .running) : start a s = s := by
  simp [start, h]

/-- The end of a PIXEL step (R112). -/
theorem finishPixel_cases (s : State) :
    ((s.pos + 1).toNat = s.total ∧
        s.finishPixel = (s.advancePos.emit Config.terminator).setPhase .done) ∨
      ((s.pos + 1).toNat ≠ s.total ∧ s.finishPixel = s.advancePos) := by
  unfold State.finishPixel
  split
  · next h => exact .inl ⟨h, rfl⟩
  · next h => exact .inr ⟨h, rfl⟩

/-- What the arbiter takes (R212). -/
theorem arbitrate_cases (s : State) :
    (s.ports.rst = true ∧ arbitrate s = some .reset) ∨
      (s.ports.rst = false ∧ s.ports.start = true ∧ s.phase ≠ .running ∧
        arbitrate s = some (.start s.ports.cfg)) ∨
      (s.ports.rst = false ∧ s.phase = .running ∧ s.ports.pixValid = true ∧ s.outPending = [] ∧
        arbitrate s = some (.pixel (Pixel.ofWord s.ports.pixData))) ∨
      (s.ports.rst = false ∧ (s.ports.start = false ∨ s.phase = .running) ∧
        (s.ports.pixValid = false ∨ s.phase ≠ .running ∨ s.outPending ≠ []) ∧ arbitrate s = none) := by
  unfold arbitrate State.startReady State.pixReady State.busy
  cases s.ports.rst <;> cases s.ports.start <;> cases s.ports.pixValid <;> cases s.phase <;>
    cases s.outPending <;> simp

end Sys2Proof.Machine
end

