-- ==== Sys2Proof/Laws/Operands.lean ====
section
/-! SUPPORT. The datapath functions: adding a pixel's deltas to the previous pixel gives that pixel back, so an op that the
selector chooses stands for exactly the pixel it was chosen for. -/

namespace Sys2Proof

/-- Adding a delta to a channel is exact addition, reduced to a byte. -/
theorem channel_add (c : Byte) (d : Int) : c + BitVec.ofInt 8 d = BitVec.ofInt 8 (c.toNat + d) := by
  rw [BitVec.ofInt_add, BitVec.ofInt_natCast, BitVec.ofNat_toNat, BitVec.setWidth_eq]

/-- R134 read from right to left: `old + (new - old) = new`. -/
@[simp] theorem channel_add_delta (new old : Byte) : old + BitVec.ofInt 8 (delta new old) = new := by
  rw [channel_add, delta, add_sub_cancel, BitVec.ofInt_natCast, BitVec.ofNat_toNat, BitVec.setWidth_eq]

/-- The pixel with the deltas of `px` and an unchanged alpha is `px`. -/
theorem Pixel.addDeltas_deltas (px prev : Pixel) (h : px.a = prev.a) :
    prev.addDeltas (deltaRed px prev) (deltaGreen px prev) (deltaBlue px prev) = px := by
  cases px
  simp_all [Pixel.addDeltas, deltaRed, deltaGreen, deltaBlue]

/-- R135: the green-relative deltas give the deltas back. -/
theorem relRed_add (px prev : Pixel) : relRed px prev + deltaGreen px prev = deltaRed px prev := Int.sub_add_cancel _ _

/-- R135. -/
theorem relBlue_add (px prev : Pixel) : relBlue px prev + deltaGreen px prev = deltaBlue px prev := Int.sub_add_cancel _ _

namespace Machine

/-- The whole effect of the op chosen for `px`: on a hit the cache stays, on a miss `px` goes to its slot (R144, R145); the op's
bytes are emitted; `prev` becomes `px` (R152). -/
theorem exec_chooseOp (px : Pixel) (s : State) :
    (s.cacheAt (hash6 px) = px ∧
        exec (chooseOp px s) s = .next ((s.emit (encode (chooseOp px s))).setPrev px)) ∨
      (s.cacheAt (hash6 px) ≠ px ∧
        exec (chooseOp px s) s = .next (s.encodeMissed px (chooseOp px s))) := by
  rcases chooseOp_cases px s with ⟨h, e⟩ | ⟨h, -, e⟩ | ⟨h, ha, -, e⟩ | ⟨h, ha, -, -, e⟩ | ⟨h, ha, -, -, e⟩
  · exact .inl ⟨h, by rw [e, exec_index, h]⟩
  · exact .inr ⟨h, by rw [e, exec_rgba]⟩
  · exact .inr ⟨h, by rw [e, exec_diff, Pixel.addDeltas_deltas px s.prev ha]⟩
  · exact .inr ⟨h, by rw [e, exec_luma, relRed_add, relBlue_add, Pixel.addDeltas_deltas px s.prev ha]⟩
  · exact .inr ⟨h, by rw [e, exec_rgb, ← ha]⟩

end Machine

end Sys2Proof
end

