-- ==== Sys2Proof/Laws/Selector.lean ====
section
/-! SUPPORT. What the op-selector step, a PIXEL command and a step at the ports can do, each said once: the next state is
written out in every case. -/

namespace Sys2Proof.Machine

/-- The state in which a pixel that is no repeat is encoded: a pending run has been flushed (R142). -/
def State.flushed (s : State) : State :=
  if s.run = 0 then s else (s.emit (encode (.run s.run.toNat))).setRun 0

theorem flush_eq (s : State) : flush s = .next s.flushed := by
  unfold State.flushed
  rcases flush_cases s with ⟨h, e⟩ | ⟨h, e⟩
  · rw [if_pos h, e]
  · rw [if_neg h, e]

@[simp] theorem State.flushed_run (s : State) : s.flushed.run = 0 := by
  unfold State.flushed
  split
  · assumption
  · rfl

/-- The bytes of a flush (R142). -/
def State.flushOps (s : State) : List Instr := if s.run = 0 then [] else [.run s.run.toNat]

/-- A flush emits at most one RUN op and clears `run`; nothing else changes. -/
theorem State.flushed_eq (s : State) :
    s.flushed = (s.emit (s.flushOps.flatMap encode)).setRun 0 := by
  unfold State.flushed State.flushOps
  split
  · next h => cases s; simp_all [State.emit, State.setRun]
  · simp

/-- R151, all it can do. A repeat lengthens the run and flushes it at 62 or at the last pixel; any other pixel flushes a
pending run, and is then an INDEX that stores nothing or another op that stores the pixel. -/
theorem opSelect_cases (p : Pixel) (s : State) :
    (normalise s.cfgChannels p = s.prev ∧ (s.run + 1 = 62 ∨ s.pos.toNat + 1 = s.total) ∧
        opSelect p s = .next ((s.accumulate.emit (encode (.run (s.run + 1).toNat))).setRun 0)) ∨
      (normalise s.cfgChannels p = s.prev ∧ s.run + 1 ≠ 62 ∧ s.pos.toNat + 1 ≠ s.total ∧
        opSelect p s = .next s.accumulate) ∨
      (normalise s.cfgChannels p ≠ s.prev ∧
        s.cacheAt (hash6 (normalise s.cfgChannels p)) = normalise s.cfgChannels p ∧
        opSelect p s = .next ((s.flushed.emit (encode (chooseOp (normalise s.cfgChannels p) s))).setPrev
          (normalise s.cfgChannels p))) ∨
      (normalise s.cfgChannels p ≠ s.prev ∧
        s.cacheAt (hash6 (normalise s.cfgChannels p)) ≠ normalise s.cfgChannels p ∧
        opSelect p s = .next (s.flushed.encodeMissed (normalise s.cfgChannels p)
          (chooseOp (normalise s.cfgChannels p) s))) := by
  unfold opSelect
  by_cases h : normalise s.cfgChannels p = s.prev
  · rw [if_pos (show s.eqPrev (normalise s.cfgChannels p) = true from decide_eq_true h)]
    rcases repeatStep_cases s with ⟨h1, e⟩ | ⟨h1, h2, e⟩
    · exact .inl ⟨h, h1, e⟩
    · exact .inr (.inl ⟨h, h1, h2, e⟩)
  · rw [if_neg (show ¬ s.eqPrev (normalise s.cfgChannels p) = true from fun e => h (of_decide_eq_true e))]
    unfold encodeStep
    rw [flush_eq, andThen_next]
    have hp : s.flushed.prev = s.prev := by rw [State.flushed_eq]; rfl
    have hc : s.flushed.cache = s.cache := by rw [State.flushed_eq]; rfl
    have hk : ∀ k, s.flushed.cacheAt k = s.cacheAt k := fun k => by simp [State.cacheAt, hc]
    rcases exec_chooseOp (normalise s.cfgChannels p) s.flushed with ⟨h1, e⟩ | ⟨h1, e⟩ <;>
      rw [hk] at h1 <;> rw [e, chooseOp_congr _ hp hc]
    · exact .inr (.inr (.inl ⟨h, h1, rfl⟩))
    · exact .inr (.inr (.inr ⟨h, h1, rfl⟩))

/-- The op-selector step always answers a next state (R155). -/
theorem opSelect_answers (p : Pixel) (s : State) : ∃ t, opSelect p s = .next t := by
  rcases opSelect_cases p s with ⟨-, -, e⟩ | ⟨-, -, -, e⟩ | ⟨-, -, e⟩ | ⟨-, -, e⟩ <;> exact ⟨_, e⟩

/-- PIXEL in RUNNING is the op-selector step and then the end of the step (R112). -/
theorem pixel_running (p : Pixel) (s : State) (h : s.phase = .running) :
    ∃ t, opSelect p s = .next t ∧ pixel p s = .next t.finishPixel := by
  obtain ⟨t, e⟩ := opSelect_answers p s
  exact ⟨t, e, by unfold pixel; rw [if_pos h, e, andThen_next]⟩

/-- PIXEL outside RUNNING is not accepted (R100). -/
theorem pixel_not_running (p : Pixel) (s : State) (h : s.phase ≠ .running) : pixel p s = .next s := by
  unfold pixel
  rw [if_neg h]

/-- What a step at the ports can be (R100, R212): RESET, an accepted START, an accepted PIXEL, or the output handshake
alone. -/
theorem step_cases (s : State) :
    (s.ports.rst = true ∧ step s = .next (doReset s.beat)) ∨
      (s.ports.rst = false ∧ s.ports.start = true ∧ s.phase ≠ .running ∧
        step s = .next (start s.ports.cfg s.beat)) ∨
      (s.ports.rst = false ∧ s.phase = .running ∧ s.ports.pixValid = true ∧ s.outPending = [] ∧
        step s = pixel (Pixel.ofWord s.ports.pixData) s.beat) ∨
      (s.ports.rst = false ∧ (s.ports.start = false ∨ s.phase = .running) ∧
        (s.ports.pixValid = false ∨ s.phase ≠ .running ∨ s.outPending ≠ []) ∧ step s = .next s.beat) := by
  unfold step portStep
  rcases arbitrate_cases s with ⟨h, e⟩ | ⟨h1, h2, h3, e⟩ | ⟨h1, h2, h3, h4, e⟩ | ⟨h1, h2, h3, e⟩ <;> rw [e]
  · exact .inl ⟨h, rfl⟩
  · exact .inr (.inl ⟨h1, h2, h3, rfl⟩)
  · exact .inr (.inr (.inl ⟨h1, h2, h3, h4, rfl⟩))
  · exact .inr (.inr (.inr ⟨h1, h2, h3, rfl⟩))

end Sys2Proof.Machine
end

