-- ==== Sys2Proof/Laws/Command.lean ====
section
/-! SUPPORT. START's validation, said once with plain propositions (40_control.md rule R106). -/

namespace Sys2Proof.Machine

/-- R106: the checks in their order. -/
theorem validate_eq (a : StartArgs) :
    validate a =
      if a.width = 0 ∨ a.height = 0 ∨ 400000000 ≤ a.width.toNat * a.height.toNat then .invalidDimensions
      else if (a.channels ≠ 3 ∧ a.channels ≠ 4) ∨ (a.colorspace ≠ 0 ∧ a.colorspace ≠ 1) then .invalidFormat
      else if a.inLen.toNat ≠ a.width.toNat * a.height.toNat * a.channels.toNat then .malformedLength
      else .none := by
  have hd : (a.width = 0 || a.height = 0 || decide (Config.pixelCeiling ≤ a.width.toNat * a.height.toNat)) = true ↔
      (a.width = 0 ∨ a.height = 0 ∨ 400000000 ≤ a.width.toNat * a.height.toNat) := by
    simp only [Bool.or_eq_true, decide_eq_true_eq, or_assoc]
    exact Iff.rfl
  have hf : (!(a.channels = 3 || a.channels = 4) || !(a.colorspace = 0 || a.colorspace = 1)) = true ↔
      ((a.channels ≠ 3 ∧ a.channels ≠ 4) ∨ (a.colorspace ≠ 0 ∧ a.colorspace ≠ 1)) := by
    simp
  unfold validate
  simp only [hd, hf]

/-- R106: what a START accepts. -/
theorem validate_none_iff (a : StartArgs) :
    validate a = .none ↔
      (0 < a.width.toNat ∧ 0 < a.height.toNat ∧ a.width.toNat * a.height.toNat < 400000000) ∧
      ((a.channels = 3 ∨ a.channels = 4) ∧ (a.colorspace = 0 ∨ a.colorspace = 1)) ∧
      a.inLen.toNat = a.width.toNat * a.height.toNat * a.channels.toNat := by
  have z : ∀ w : Word, w = 0 ↔ w.toNat = 0 := fun w => ⟨fun h => h ▸ rfl, fun h => BitVec.eq_of_toNat_eq h⟩
  rw [validate_eq]
  simp only [z]
  split
  · next h => exact ⟨nofun, fun e => by omega⟩
  · next h =>
    split
    · next h' =>
      refine ⟨nofun, fun e => ?_⟩
      rcases h' with h' | h'
      · exact (e.2.1.1.elim h'.1 h'.2).elim
      · exact (e.2.1.2.elim h'.1 h'.2).elim
    · next h' =>
      rw [not_or, Classical.not_and_iff_not_or_not, Classical.not_and_iff_not_or_not, not_not, not_not, not_not,
        not_not] at h'
      split
      · next h'' => exact ⟨nofun, fun e => absurd e.2.2 h''⟩
      · next h'' => exact ⟨fun _ => ⟨by omega, h', not_not.1 h''⟩, fun _ => rfl⟩

end Sys2Proof.Machine
end

