-- ==== Sys2Proof/Laws/Decode.lean ====
section
/-! SUPPORT. The fields of the bytes the encoder builds, and the bias arithmetic of 30_encoding.md rule R82. -/

namespace Sys2Proof

/-- A byte of family 00, 01, 10 or 11 with six more bits (R71). -/
theorem tag_fields : ∀ (f : BitVec 2) (x : BitVec 6),
    bitField (f ++ x) 6 2 = f.toNat ∧ bitField (f ++ x) 0 6 = x.toNat := by decide

/-- Families 00, 01 and 10 are no literal tags, and a RUN field below 62 is none (R79). -/
theorem tag_not_literal : ∀ (f : BitVec 2) (x : BitVec 6), (f ≠ 3 ∨ x.toNat < 62) →
    f ++ x ≠ Config.tagRgb ∧ f ++ x ≠ Config.tagRgba := by decide

/-- R87: the payload length of a family byte that is no literal tag: 1 for LUMA, else 0. -/
theorem payloadLength_family : ∀ (f : BitVec 2) (x : BitVec 6), (f ≠ 3 ∨ x.toNat < 62) →
    payloadLength (f ++ x) = if f = 2 then 1 else 0 := by decide

/-- R87: a DIFF byte has no payload. -/
theorem payloadLength_diff : ∀ x y z : BitVec 2, payloadLength (0b01#2 ++ x ++ y ++ z) = 0 := by decide

theorem wellFormed_run_iff (n : Nat) : (Instr.run n).wellFormed = true ↔ 1 ≤ n ∧ n ≤ 62 := by
  simp only [Instr.wellFormed, Bool.and_eq_true, decide_eq_true_eq]
  exact Iff.rfl

/-- A RUN field below 62 for every well-formed count (R79). -/
theorem runField_lt (n : Nat) (h : (Instr.run n).wellFormed = true) : (BitVec.ofNat 6 (n - 1)).toNat < 62 := by
  obtain ⟨h1, h2⟩ := wellFormed_run_iff n |>.1 h
  rw [BitVec.toNat_ofNat, Nat.mod_eq_of_lt (by omega)]
  omega

/-- The three fields of a DIFF byte (R73). -/
theorem diff_fields : ∀ x y z : BitVec 2,
    bitField (0b01#2 ++ x ++ y ++ z) 6 2 = 1 ∧ bitField (0b01#2 ++ x ++ y ++ z) 4 2 = x.toNat ∧
      bitField (0b01#2 ++ x ++ y ++ z) 2 2 = y.toNat ∧ bitField (0b01#2 ++ x ++ y ++ z) 0 2 = z.toNat ∧
      0b01#2 ++ x ++ y ++ z ≠ Config.tagRgb ∧ 0b01#2 ++ x ++ y ++ z ≠ Config.tagRgba := by decide

/-- The two nibbles of a LUMA second byte (R74). -/
theorem nibble_fields : ∀ x y : BitVec 4, bitField (x ++ y) 4 4 = x.toNat ∧ bitField (x ++ y) 0 4 = y.toNat := by
  decide

/-- A biased quantity that lies in its field's range is read back exactly (R82). -/
theorem ofInt_toNat_of_range (w : Nat) (v : Int) (h0 : 0 ≤ v) (h1 : v < 2 ^ w) :
    ((BitVec.ofInt w v).toNat : Int) = v := by
  rw [BitVec.toNat_ofInt]
  have : v % (2 ^ w : Int) = v := Int.emod_eq_of_lt h0 h1
  push_cast
  omega

@[simp] theorem inRange_iff (lo hi v : Int) : inRange lo hi v = true ↔ lo ≤ v ∧ v ≤ hi := by
  simp [inRange]

@[simp] theorem inDiffRange_iff (v : Int) : inDiffRange v = true ↔ -2 ≤ v ∧ v ≤ 1 := inRange_iff _ _ _

@[simp] theorem inLumaGreenRange_iff (v : Int) : inLumaGreenRange v = true ↔ -32 ≤ v ∧ v ≤ 31 := inRange_iff _ _ _

@[simp] theorem inLumaRelRange_iff (v : Int) : inLumaRelRange v = true ↔ -8 ≤ v ∧ v ≤ 7 := inRange_iff _ _ _

theorem wellFormed_diff_iff (dr dg db : Int) : (Instr.diff dr dg db).wellFormed = true ↔
    (-2 ≤ dr ∧ dr ≤ 1) ∧ (-2 ≤ dg ∧ dg ≤ 1) ∧ (-2 ≤ db ∧ db ≤ 1) := by
  simp [Instr.wellFormed, and_assoc]

theorem wellFormed_luma_iff (dg drg dbg : Int) : (Instr.luma dg drg dbg).wellFormed = true ↔
    (-32 ≤ dg ∧ dg ≤ 31) ∧ (-8 ≤ drg ∧ drg ≤ 7) ∧ (-8 ≤ dbg ∧ dbg ≤ 7) := by
  simp [Instr.wellFormed, and_assoc]

end Sys2Proof
end

