-- ==== Sys2Proof/Laws/PerInstr.lean ====
section
/-! SUPPORT. Facts about every op as syntax, one lemma per constructor. `PayloadFollowsTag` is 30_encoding.md rule R87: "An op's
length follows from its first byte alone". -/

namespace Sys2Proof.Laws.PayloadFollowsTag

/-- The first byte of a well-formed op fixes how many bytes follow it. -/
def Statement (i : Instr) : Prop :=
  i.wellFormed = true → ∃ t rest, encode i = t :: rest ∧ rest.length = payloadLength t

theorem index (slot : Slot) : Statement (.index slot) := fun _ =>
  ⟨_, _, rfl, (payloadLength_family 0b00#2 (BitVec.ofNat 6 slot.val) (.inl (by decide))).symm⟩

theorem diff (dr dg db : Int) : Statement (.diff dr dg db) := fun _ =>
  ⟨_, _, rfl, (payloadLength_diff _ _ _).symm⟩

theorem luma (dg drg dbg : Int) : Statement (.luma dg drg dbg) := fun _ =>
  ⟨_, _, rfl, (payloadLength_family 0b10#2 (BitVec.ofInt 6 (dg + 32)) (.inl (by decide))).symm⟩

theorem run (n : Nat) : Statement (.run n) := fun h =>
  ⟨_, _, rfl, (payloadLength_family 0b11#2 (BitVec.ofNat 6 (n - 1)) (.inr (runField_lt n h))).symm⟩

theorem rgb (r g b : Byte) : Statement (.rgb r g b) := fun _ => ⟨Config.tagRgb, [r, g, b], rfl, rfl⟩

theorem rgba (r g b a : Byte) : Statement (.rgba r g b a) := fun _ => ⟨Config.tagRgba, [r, g, b, a], rfl, rfl⟩

end Sys2Proof.Laws.PayloadFollowsTag
end

