-- ==== Sys2Proof/Tests/Slice0.lean ====
section
/-! SUPPORT. The model's own tests: expected values from spec/95_test_vectors.md, spec/30_encoding.md and hand calculation from
the rules. Then one witness per statement of Certificates/Slice0/Obligations.lean that has hypotheses, at the boundary
values of its clauses. -/

namespace Sys2Proof.Tests

open Sys2Proof.Machine

/-! ### Well-formedness refuses what R82 excludes -/

theorem test_diff_delta_above_range_refused : (Instr.diff 2 0 0).wellFormed = false := by decide
theorem test_diff_delta_below_range_refused : (Instr.diff 0 0 (-3)).wellFormed = false := by decide
theorem test_luma_green_above_range_refused : (Instr.luma 32 0 0).wellFormed = false := by decide
theorem test_luma_red_above_range_refused : (Instr.luma 0 8 0).wellFormed = false := by decide
theorem test_luma_blue_below_range_refused : (Instr.luma 0 0 (-9)).wellFormed = false := by decide
theorem test_run_of_0_refused : (Instr.run 0).wellFormed = false := by decide
theorem test_run_of_63_refused : (Instr.run 63).wellFormed = false := by decide

/-! ### Decoding, bit by bit from R72 to R77; the bytes of 95 P3 and V-LUMA-5 -/

theorem test_decode_index : decode [0b00_000100, 9] = .ok (.index 4, [9]) := by decide
theorem test_decode_diff : decode [0b01_01_11_10] = .ok (.diff (-1) 1 0, []) := by decide
theorem test_decode_luma : decode [0b10_101010, 0b0000_1111, 7] = .ok (.luma 10 (-8) 7, [7]) := by decide
theorem test_decode_run : decode [0b11_111101] = .ok (.run 62, []) := by decide
theorem test_decode_rgb : decode [0b11111110, 200, 10, 11, 1] = .ok (.rgb 200 10 11, [1]) := by decide
theorem test_decode_rgba : decode [0b11111111, 1, 2, 3, 4] = .ok (.rgba 1 2 3 4, []) := by decide
theorem test_table_word_luma : decodeTableWord 16 0x31B8 = some (.luma 24 (-5) (-7)) := by decide
theorem test_table_word_without_payload_bits : decodeTableWord 8 0xFE = some (.rgb 0 0 0) := by decide

/-! ### Datapath: V-HASH -/

theorem test_hash_black : hash6 ⟨0, 0, 0, 255⟩ = 53 := by decide
theorem test_hash_mixed : hash6 ⟨102, 110, 117, 255⟩ = 0 := by decide
theorem test_unpack_three_channels :
    unpackBuffer [1, 2, 3, 4, 5, 6] 3 = [⟨1, 2, 3, 255⟩, ⟨4, 5, 6, 255⟩] := by decide

/-! ### Small states -/

/-- RUNNING in an RGBA image of `n` pixels, right after START, with the header taken. -/
def begun (n : Word) : State :=
  { start ⟨n, 1, 4, 0, BitVec.ofNat 64 (n.toNat * 4)⟩ State.reset with outPending := [] }

/-- The same with a previous pixel and a pending run. -/
def after (n : Word) (prev : Pixel) (run : BitVec 6) : State := ((begun n).setPrev prev).setRun run

/-- The host offers `p`. -/
def offered (s : State) (p : Pixel) : State := { s with inputs := [Ports.offer p] }

/-- The op bytes a step adds to the 14 bytes of the header. -/
def opBytes (o : Result) : Option (List Byte) :=
  match o with
  | .next t => some (t.out.drop 14)
  | _ => none

/-- A part of the next state. -/
def nextOf {α : Type} (f : State → α) (o : Result) : Option α :=
  match o with
  | .next t => some (f t)
  | _ => none

/-! ### The ops -/

theorem test_index_emits_slot :
    opBytes (step (offered (((after 9 ⟨20, 20, 20, 255⟩ 0)).cacheWrite 11 ⟨10, 10, 10, 255⟩) ⟨10, 10, 10, 255⟩)) =
      some [0x0B] := by decide

/-- V-INDEX-1: INDEX comes before the alpha literal. -/
theorem test_index_before_alpha : opBytes (step (offered (begun 9) ⟨0, 0, 0, 0⟩)) = some [0x00] := by decide

/-- V-DIFF-3. -/
theorem test_diff_packs_fields :
    opBytes (step (offered (after 9 ⟨10, 10, 10, 255⟩ 0) ⟨9, 11, 10, 255⟩)) = some [0x5E] := by decide

/-- V-CACHE-1: a DIFF pixel is stored in its slot and becomes `prev`. -/
theorem test_diff_stores :
    nextOf (fun t => (t.cacheAt 26, t.prev)) (step (offered (after 9 ⟨10, 10, 10, 255⟩ 0) ⟨11, 11, 11, 255⟩)) =
      some (⟨11, 11, 11, 255⟩, ⟨11, 11, 11, 255⟩) := by decide

/-- V-LUMA-5. -/
theorem test_luma_packs_fields :
    opBytes (step (offered (after 9 ⟨100, 100, 100, 255⟩ 0) ⟨102, 110, 117, 255⟩)) = some [0xAA, 0x0F] := by decide

/-- V-DIFF-4: a red delta of 2 is no DIFF. -/
theorem test_luma_takes_delta_2 :
    opBytes (step (offered (after 9 ⟨10, 10, 10, 255⟩ 0) ⟨12, 10, 10, 255⟩)) = some [0xA0, 0xA8] := by decide

/-- V-LUMA-3: a green delta of 32 is no LUMA. -/
theorem test_rgb_takes_green_32 :
    opBytes (step (offered (after 9 ⟨100, 100, 100, 255⟩ 0) ⟨132, 132, 132, 255⟩)) =
      some [0xFE, 0x84, 0x84, 0x84] := by decide

/-- V-RGB-2: the deltas are exact, not wrapped. -/
theorem test_rgb_deltas_do_not_wrap :
    opBytes (step (offered (after 9 ⟨255, 255, 255, 255⟩ 0) ⟨0, 0, 0, 255⟩)) = some [0xFE, 0, 0, 0] := by decide

/-- V-RGBA-2: an alpha change with no colour change. -/
theorem test_rgba_on_alpha_change :
    opBytes (step (offered (after 9 ⟨10, 10, 10, 255⟩ 0) ⟨10, 10, 10, 128⟩)) =
      some [0xFF, 0x0A, 0x0A, 0x0A, 0x80] := by decide

/-- V-RUN-4: a pending RUN 3 is flushed before the breaking pixel's DIFF. -/
theorem test_run_flushed_on_break :
    opBytes (step (offered (after 9 ⟨7, 7, 7, 255⟩ 3) ⟨8, 8, 8, 255⟩)) = some [0xC2, 0x7F] := by decide

/-- V-RUN-2: the 62nd repeat flushes, and `run` is 0 again. -/
theorem test_run_flushed_at_62 :
    nextOf (fun t => (t.out.drop 14, t.run)) (step (offered (after 99 ⟨7, 7, 7, 255⟩ 61) ⟨7, 7, 7, 255⟩)) =
      some ([0xFD], 0) := by decide

/-- V-CACHE-3: a repeat of the initial `prev` stores nothing. -/
theorem test_run_stores_nothing :
    nextOf (fun t => (t.cacheAt 53, t.run, t.out.length)) (step (offered (begun 9) ⟨0, 0, 0, 255⟩)) =
      some (⟨0, 0, 0, 0⟩, 1, 14) := by decide

/-! ### The commands -/

/-- V-EQ-2: the 23-byte minimum. -/
theorem test_last_pixel_ends_the_stream :
    nextOf (fun t => (t.phase, t.outCount, t.out.drop 14)) (step (offered (begun 1) ⟨0, 0, 0, 255⟩)) =
      some (.done, 23, [0xC0, 0, 0, 0, 0, 0, 0, 0, 1]) := by decide

/-- V-START-5. -/
theorem test_start_header :
    (start ⟨19999, 20000, 3, 1, 1199940000⟩ State.reset).out =
      [0x71, 0x6F, 0x69, 0x66, 0, 0, 0x4E, 0x1F, 0, 0, 0x4E, 0x20, 3, 1] := by decide

/-- V-START-4 and V-START-15: the ceiling itself is refused, and dimensions are checked first. -/
theorem test_start_dimensions :
    (start ⟨20000, 20000, 4, 0, 1600000000⟩ State.reset).errCode = .invalidDimensions ∧
      (start ⟨0, 0, 7, 9, 3⟩ State.reset).errCode = .invalidDimensions := by decide

/-- V-START-16 and V-START-12. -/
theorem test_start_format_then_length :
    (start ⟨1, 1, 0, 0, 0⟩ State.reset).errCode = .invalidFormat ∧
      (start ⟨2, 2, 3, 0, 16⟩ State.reset).errCode = .malformedLength := by decide

/-- V-3CH-2: the alpha lane is ignored, so black is a repeat of the initial `prev`. -/
theorem test_three_channel_alpha :
    nextOf (fun t => t.out.drop 14) (pixel ⟨0, 0, 0, 0⟩ (start ⟨1, 1, 3, 0, 3⟩ State.reset)) =
      some [0xC0, 0, 0, 0, 0, 0, 0, 0, 1] := by decide

/-- V-START-21: a PIXEL in IDLE is not accepted. -/
theorem test_pixel_in_idle : step (offered State.reset ⟨1, 2, 3, 4⟩) = .next State.reset := by rfl

/-- R102, R55: a pixel waits while a byte is untaken, and the host takes one byte a step. -/
theorem test_output_handshake :
    nextOf (fun t => (t.pos, t.outPending))
        (step { begun 9 with
          outPending := [1, 2]
          inputs := [{ Ports.offer ⟨1, 2, 3, 4⟩ with outReady := true }] }) =
      some (0, [2]) := by decide

/-- 95 V-DEC-1: the E1 stream. -/
theorem test_decoder_contract :
    decodeStream false
        [0x71, 0x6F, 0x69, 0x66, 0, 0, 0, 2, 0, 0, 0, 1, 4, 0, 0xAA, 0x88, 0xC0, 0, 0, 0, 0, 0, 0, 0, 1] =
      some ⟨2, 1, 4, 0, [10, 10, 10, 255, 10, 10, 10, 255]⟩ := by decide

/-! ### Witnesses: states and operands that meet the hypotheses of the statements -/

/-- The invariant of R36 on a state whose cache is still empty and whose alpha is opaque. -/
theorem inv_of_emptyCache (s : State) (hc : s.cache = emptyCache) (hr : s.run.toNat ≤ 61) (hp : s.prev.a = 255)
    (hd : s.phase = .done → s.pos.toNat = s.total ∧ s.run = 0) (hn : s.phase = .running → s.pos.toNat < s.total)
    (hv : validate s.latched = .none) (he : s.errCode ≠ .none ↔ s.phase = .error) : s.Inv :=
  have hk : ∀ k : Slot, s.cacheAt k = Config.cacheInit := fun k => by
    unfold State.cacheAt
    simp only [hc, emptyCache_get]
  ⟨hr, fun k => .inl (hk k), fun _ _ => hp, fun _ _ k => .inl (hk k), hd, hn, fun _ => hv, he⟩

/-- A completed one-pixel image, V-EQ-2. -/
def completed : State :=
  { (begun 1).setPhase .done with
    pos := 1
    out := header ⟨1, 1, 4, 0, 4⟩ ++ [0xC0] ++ Config.terminator
    outCount := 23 }

theorem begun_inv : (begun 2).Inv := inv_of_emptyCache _ rfl (by decide) rfl (by decide) (by decide) (by decide) (by decide)

theorem last_pixel_inv : ({ begun 2 with pos := 1 } : State).Inv :=
  inv_of_emptyCache _ rfl (by decide) rfl (by decide) (by decide) (by decide) (by decide)

theorem completed_inv : completed.Inv :=
  inv_of_emptyCache _ rfl (by decide) rfl (by decide) (by decide) (by decide) (by decide)

theorem begun_streamInv : (begun 2).StreamInv :=
  ⟨by decide, fun h => absurd (.inl rfl) h, fun _ => by decide, fun _ => by decide, fun _ h => absurd rfl h,
    fun h => absurd h (by decide), fun h => absurd h (by decide), fun h => absurd h (by decide)⟩

theorem completed_streamInv : completed.StreamInv :=
  ⟨by decide, fun h => absurd (.inr rfl) h, fun _ => by decide, fun h => absurd h (by decide),
    fun h => absurd h (by decide), fun _ => by decide, fun _ => by decide, fun _ => by decide⟩

/-- The least and the greatest operands of each op are well formed. -/
theorem witness_DecodeOfEncodeIsTheOp :
    (Instr.index 0).wellFormed = true ∧ (Instr.index 63).wellFormed = true ∧ (Instr.diff (-2) (-2) (-2)).wellFormed = true ∧
      (Instr.diff 1 1 1).wellFormed = true ∧ (Instr.luma (-32) (-8) (-8)).wellFormed = true ∧
      (Instr.luma 31 7 7).wellFormed = true ∧ (Instr.run 1).wellFormed = true ∧ (Instr.run 62).wellFormed = true ∧
      (Instr.rgb 0 0 255).wellFormed = true ∧ (Instr.rgba 255 0 0 0).wellFormed = true := by decide

theorem witness_EncodeOfDecodeIsTheBytes : decode [0x80, 0x00, 0x40] = .ok (.luma (-32) (-8) (-8), [0x40]) := by decide

/-- A payload of the right length for the tags at the ends of every family. -/
theorem witness_EveryTagByteIsOneOp :
    let need := fun t : Byte =>
      if t.toNat = 0xFE then 3 else if t.toNat = 0xFF then 4 else if 0x80 ≤ t.toNat ∧ t.toNat ≤ 0xBF then 1 else 0
    ([1, 2, 3] : List Byte).length = need 0xFE ∧ ([1, 2, 3, 4] : List Byte).length = need 0xFF ∧
      ([1] : List Byte).length = need 0x80 ∧ ([1] : List Byte).length = need 0xBF ∧
      ([] : List Byte).length = need 0x00 ∧ ([] : List Byte).length = need 0x7F ∧ ([] : List Byte).length = need 0xC0 ∧
      ([] : List Byte).length = need 0xFD := by decide

theorem witness_ShortStreamsAreRefusedByName :
    ([1, 2] : List Byte).length < payloadLength 0xFE ∧ ([1, 2, 3] : List Byte).length < payloadLength 0xFF ∧
      ([] : List Byte).length < payloadLength 0x80 := by decide

/-- The operand ranges of DIFF, LUMA and RUN, at both ends: for `OpBytesFollowTheFormats`, `DiffOpCompletes`,
`LumaOpCompletes` and `RunOpCompletes`. -/
theorem witness_operand_ranges :
    ((-2 : Int) ≤ -2 ∧ (-2 : Int) ≤ 1 ∧ (1 : Int) ≤ 1) ∧ ((-32 : Int) ≤ -32 ∧ (-32 : Int) ≤ 31 ∧ (31 : Int) ≤ 31) ∧
      ((-8 : Int) ≤ -8 ∧ (-8 : Int) ≤ 7 ∧ (7 : Int) ≤ 7) ∧ (1 ≤ 1 ∧ 1 ≤ 62 ∧ 62 ≤ 62) := by decide

/-- A pixel that has the deltas of `DiffOpCompletes` and one that has those of `LumaOpCompletes`. -/
theorem witness_pixel_with_the_deltas :
    (deltaRed ⟨8, 11, 10, 255⟩ ⟨10, 10, 10, 255⟩ = -2 ∧ deltaGreen ⟨8, 11, 10, 255⟩ ⟨10, 10, 10, 255⟩ = 1 ∧
        deltaBlue ⟨8, 11, 10, 255⟩ ⟨10, 10, 10, 255⟩ = 0) ∧
      (deltaGreen ⟨60, 68, 75, 255⟩ ⟨100, 100, 100, 255⟩ = -32 ∧ relRed ⟨60, 68, 75, 255⟩ ⟨100, 100, 100, 255⟩ = -8 ∧
        relBlue ⟨60, 68, 75, 255⟩ ⟨100, 100, 100, 255⟩ = 7) := by decide

/-- The extreme deltas, at which a wrapped difference would differ, and a pixel in the range of DIFF. -/
theorem witness_RangePredicatesNest :
    ((-255 : Int) = ((⟨0, 0, 0, 255⟩ : Pixel).r.toNat : Int) - (after 9 ⟨255, 255, 255, 255⟩ 0).prev.r.toNat) ∧
      ((255 : Int) = ((⟨255, 0, 0, 255⟩ : Pixel).r.toNat : Int) - (begun 2).prev.r.toNat) ∧
      (begun 2).diffOk ⟨1, 0, 0, 255⟩ = true := by decide

theorem witness_ChosenOpIsTheOneReached : (⟨1, 2, 3, 4⟩ : Pixel) ≠ (begun 2).prev := by decide

theorem witness_BufferUnpacksAndPacksBack :
    ([1, 2, 3, 4, 5, 6] : List Byte).length = 2 * (3 : Byte).toNat ∧ 1 < 2 ∧ ([1, 2, 3, 4] : List Byte).length = 1 * (4 : Byte).toNat := by
  decide

theorem witness_OpsTouchOnlyTheirOwnState :
    (∃ t, exec (.index 3) (begun 2) = .next t) ∧ (∃ t, exec (.run 1) (begun 2) = .next t) ∧
      ∃ t, exec (.diff 1 1 1) (begun 2) = .next t := ⟨⟨_, rfl⟩, ⟨_, rfl⟩, ⟨_, rfl⟩⟩

/-- Pending runs at both ends of the allowed range, in both channel modes. -/
theorem witness_SelectorStepFollowsThePseudocode :
    ((begun 2).run.toNat ≤ 61 ∧ (after 9 ⟨1, 1, 1, 255⟩ 61).run.toNat ≤ 61) ∧
      (⟨1, 2, 3, 4⟩ : Pixel) = (if (begun 2).cfgChannels = 3 then ⟨1, 2, 3, 255⟩ else ⟨1, 2, 3, 4⟩) ∧
      (let s := start ⟨1, 1, 3, 0, 3⟩ State.reset
       (s.run.toNat ≤ 61 ∧ s.cfgChannels = 3) ∧
        (⟨1, 2, 3, 255⟩ : Pixel) = (if s.cfgChannels = 3 then ⟨1, 2, 3, 255⟩ else ⟨1, 2, 3, 4⟩)) := by decide

theorem witness_SelectorNeverEmitsTheExcludedOps :
    (begun 2).Inv ∧ (begun 2).phase = .running ∧ (⟨1, 2, 3, 4⟩ : Pixel) = normalise (begun 2).cfgChannels ⟨1, 2, 3, 4⟩ ∧
      (⟨1, 2, 3, 4⟩ : Pixel) ≠ (begun 2).prev := ⟨begun_inv, rfl, by decide, by decide⟩

theorem witness_AlphaLaneIsIgnoredForThreeChannels :
    (start ⟨1, 1, 3, 0, 3⟩ State.reset).phase = .running ∧ (start ⟨1, 1, 3, 0, 3⟩ State.reset).cfgChannels = 3 := by decide

/-- The ports and the phase of an accepted pixel. -/
def Accepts (s : State) : Prop :=
  s.ports.rst = false ∧ s.ports.pixValid = true ∧ s.phase = .running ∧ s.outPending = []

/-- Each of the four clauses: no run pending, a run pending, a flush at 62 and at the last pixel, and no flush. -/
theorem witness_StepRunsTheSelectedOps :
    (Accepts (offered (after 9 ⟨1, 1, 1, 255⟩ 0) ⟨9, 9, 9, 255⟩) ∧
        normalise 4 (Pixel.ofWord (Ports.offer ⟨9, 9, 9, 255⟩).pixData) ≠ ⟨1, 1, 1, 255⟩) ∧
      (Accepts (offered (after 9 ⟨1, 1, 1, 255⟩ 61) ⟨9, 9, 9, 255⟩) ∧ (61 : BitVec 6) ≠ 0) ∧
      (Accepts (offered (after 9 ⟨1, 1, 1, 255⟩ 61) ⟨1, 1, 1, 255⟩) ∧ (61 : BitVec 6) + 1 = 62 ∧
        normalise 4 (Pixel.ofWord (Ports.offer ⟨1, 1, 1, 255⟩).pixData) = ⟨1, 1, 1, 255⟩) ∧
      (Accepts (offered (begun 1) ⟨0, 0, 0, 255⟩) ∧ (begun 1).pos.toNat + 1 = (begun 1).total) ∧
      (Accepts (offered (after 9 ⟨1, 1, 1, 255⟩ 60) ⟨1, 1, 1, 255⟩) ∧ (60 : BitVec 6) + 1 ≠ 62 ∧
        (begun 9).pos.toNat + 1 ≠ (begun 9).total) := by
  refine ⟨⟨⟨?_, ?_, ?_, ?_⟩, ?_⟩, ⟨⟨?_, ?_, ?_, ?_⟩, ?_⟩, ⟨⟨?_, ?_, ?_, ?_⟩, ?_, ?_⟩, ⟨⟨?_, ?_, ?_, ?_⟩, ?_⟩,
    ⟨⟨?_, ?_, ?_, ?_⟩, ?_, ?_⟩⟩ <;> decide

theorem witness_EveryEmittableWordRunsNext :
    (decodeTableWord 8 0x00 = some (.index 0) ∧ (Instr.index 0).emittable = true) ∧
      (decodeTableWord 8 0x40 = some (.diff (-2) (-2) (-2)) ∧ (Instr.diff (-2) (-2) (-2)).emittable = true) ∧
      (decodeTableWord 16 0xFFBF = some (.luma 31 7 7) ∧ (Instr.luma 31 7 7).emittable = true) ∧
      (decodeTableWord 8 0xFD = some (.run 62) ∧ (Instr.run 62).emittable = true) ∧
      (decodeTableWord 32 0xFE = some (.rgb 0 0 0) ∧ (Instr.rgb 0 0 0).emittable = true) ∧
      (decodeTableWord 40 0xFF = some (.rgba 0 0 0 0) ∧ (Instr.rgba 0 0 0 0).emittable = true) := by decide

/-- The host asserts RESET. -/
def resetting (s : State) : State := { s with inputs := [{ Ports.quiet with rst := true }] }

/-- The host asserts START with `a`. -/
def starting (s : State) (a : StartArgs) : State := { s with inputs := [{ Ports.quiet with start := true, cfg := a }] }

theorem witness_ResetSetsEveryElement : (resetting (begun 2)).ports.rst = true := by decide

theorem witness_OneCommandIsTakenPerStep :
    (resetting (begun 2)).ports.rst = true ∧
      ((starting completed ⟨1, 1, 4, 0, 4⟩).ports.rst = false ∧ (starting completed ⟨1, 1, 4, 0, 4⟩).ports.start = true ∧
        completed.phase ≠ .running) ∧
      ((offered (begun 2) ⟨1, 2, 3, 4⟩).ports.start = false ∧ (offered (begun 2) ⟨1, 2, 3, 4⟩).ports.pixValid = true ∧
        (offered (begun 2) ⟨1, 2, 3, 4⟩).pixReady = true) := by decide

/-- START in RUNNING, PIXEL in IDLE, and a pixel that waits behind an untaken byte. -/
theorem witness_CommandsNotAcceptedDoNothing :
    ((starting (begun 2) ⟨1, 1, 4, 0, 4⟩).ports.rst = false ∧ (starting (begun 2) ⟨1, 1, 4, 0, 4⟩).phase = .running ∧
        (starting (begun 2) ⟨1, 1, 4, 0, 4⟩).ports.pixValid = false) ∧
      ((offered State.reset ⟨1, 2, 3, 4⟩).ports.start = false ∧ State.reset.phase ≠ .running) ∧
      ((offered { begun 2 with outPending := [1] } ⟨1, 2, 3, 4⟩).ports.start = false ∧
        ({ begun 2 with outPending := [1] } : State).outPending ≠ []) := by decide

/-- The smallest and the largest image (V-START-8). -/
theorem witness_ValidStartBeginsAnEncode :
    ((starting State.reset ⟨1, 1, 4, 1, 4⟩).ports.cfg = ⟨1, 1, 4, 1, 4⟩ ∧ 0 < (1 : Word).toNat ∧
        (4 : BitVec 64).toNat = (1 : Word).toNat * (1 : Word).toNat * (4 : Byte).toNat) ∧
      ((399999999 : Word).toNat * (1 : Word).toNat < 400000000 ∧
        (1199999997 : BitVec 64).toNat = (399999999 : Word).toNat * (1 : Word).toNat * (3 : Byte).toNat) ∧
      State.reset.phase ≠ .running ∧ completed.phase ≠ .running := by decide

/-- One description for each clause: the ceiling itself, a zero, a channel count of 5 and a colour space of 2 just above
the legal values, and a length off by one. -/
theorem witness_FailedStartReportsTheFirstError :
    (400000000 ≤ (20000 : Word).toNat * (20000 : Word).toNat ∧ (0 : Word) = 0) ∧
      ((1 : Word) ≠ 0 ∧ (1 : Word).toNat * (1 : Word).toNat < 400000000 ∧ ((5 : Byte) ≠ 3 ∧ (5 : Byte) ≠ 4) ∧
        ((2 : Byte) ≠ 0 ∧ (2 : Byte) ≠ 1)) ∧
      ((2 : Word) ≠ 0 ∧ (15 : BitVec 64).toNat ≠ (2 : Word).toNat * (2 : Word).toNat * (4 : Byte).toNat) ∧
      (starting completed ⟨2, 2, 4, 0, 15⟩).ports.cfg = ⟨2, 2, 4, 0, 15⟩ ∧
      (starting completed ⟨2, 2, 4, 0, 15⟩).phase ≠ .running := by decide

theorem witness_PixelEmitsItsRowAndTheLastTheTerminator :
    completed.phase ≠ .running ∧ ((begun 2).Inv ∧ (begun 2).pos.toNat + 1 ≠ (begun 2).total) ∧
      (({ begun 2 with pos := 1 } : State).Inv ∧
        ({ begun 2 with pos := 1 } : State).pos.toNat + 1 = ({ begun 2 with pos := 1 } : State).total) :=
  ⟨by decide, ⟨begun_inv, by decide⟩, last_pixel_inv, by decide⟩

/-- RESET, a START that succeeds, one that fails, and the last PIXEL each change the phase. -/
theorem witness_PhaseChangesOnlyByItsCommands :
    nextOf State.phase (step (resetting (begun 2))) = some .idle ∧
      nextOf State.phase (step (starting completed ⟨1, 1, 4, 0, 4⟩)) = some .running ∧
      nextOf State.phase (step (starting completed ⟨1, 1, 5, 0, 5⟩)) = some .error ∧
      nextOf State.phase (step (offered (begun 1) ⟨0, 0, 0, 255⟩)) = some .done := by decide

theorem witness_LatchesAreWrittenByStartAndResetOnly :
    (∃ t, step (offered (begun 2) ⟨0, 0, 0, 255⟩) = .next t) ∧ (offered (begun 2) ⟨0, 0, 0, 255⟩).ports.rst = false ∧
      (offered (begun 2) ⟨0, 0, 0, 255⟩).ports.start = false := ⟨⟨_, rfl⟩, by decide, by decide⟩

theorem witness_ConfigurationPortsAreReadOnlyAtStart :
    (starting (begun 2) ⟨1, 1, 4, 0, 4⟩).inputs = [{ Ports.quiet with start := true, cfg := ⟨1, 1, 4, 0, 4⟩ }] ∧
      (starting (begun 2) ⟨1, 1, 4, 0, 4⟩).phase = .running := by decide

theorem witness_ColorspaceReachesOnlyHeaderByte13 :
    (∃ t, pixel ⟨1, 2, 3, 4⟩ (begun 2) = .next t) ∧ completed.phase ≠ .running ∧
      validate { (⟨1, 1, 4, 1, 4⟩ : StartArgs) with colorspace := 0 } = .none := ⟨⟨_, rfl⟩, by decide, by decide⟩

theorem witness_OutputPortIsLosslessAndOrdered :
    (∃ t, step (starting { completed with outPending := [1] } ⟨1, 1, 4, 0, 4⟩) = .next t) ∧
      (starting { completed with outPending := [1] } ⟨1, 1, 4, 0, 4⟩).ports.rst = false := ⟨⟨_, rfl⟩, by decide⟩

theorem witness_StatusOutputsFollowThePhase :
    (begun 2).Inv ∧ completed.Inv ∧ ({ completed with outPending := [1, 2] } : State).outPending = 1 :: [2] :=
  ⟨begun_inv, completed_inv, rfl⟩

theorem witness_EveryStepKeepsTheStateInvariant :
    (offered (begun 2) ⟨1, 2, 3, 4⟩).Inv ∧ ∃ t, step (offered (begun 2) ⟨1, 2, 3, 4⟩) = .next t :=
  ⟨inv_of_emptyCache _ rfl (by decide) rfl (by decide) (by decide) (by decide) (by decide), _, rfl⟩

theorem witness_EveryStepKeepsTheStreamInvariant :
    (begun 2).Inv ∧ (begun 2).StreamInv ∧ ∃ t, step (begun 2) = .next t := ⟨begun_inv, begun_streamInv, _, rfl⟩

theorem witness_CompleteStreamSizeIsBounded : completed.Inv ∧ completed.StreamInv ∧ completed.phase = .done :=
  ⟨completed_inv, completed_streamInv, rfl⟩

/-- The smallest image in both channel modes, encoded from IDLE: for `EncodeCompletesWhateverCameBefore`,
`DecodingTheStreamReturnsTheImage`, `DecoderThatStoresAfterEveryOpAgrees` and `TerminatorPatternOccursOnlyAtTheEnd`. -/
theorem witness_encode_of_a_valid_image :
    ValidImage 1 1 4 1 [1, 2, 3, 4] ∧ ValidImage 1 1 3 0 [1, 2, 3] ∧ State.reset.phase ≠ .running ∧
      ∃ t, encodeRun 1 1 4 1 [1, 2, 3, 4] State.reset = .next t := by
  refine ⟨?_, ?_, by decide, _, rfl⟩ <;> unfold ValidImage <;> decide

/-- The pattern of `TerminatorPatternOccursOnlyAtTheEnd` does occur, at the end. -/
theorem witness_TerminatorPatternOccursOnlyAtTheEnd :
    nextOf (fun t => (t.out.drop 19).take 8) (encodeRun 1 1 4 1 [1, 2, 3, 4] State.reset) = some Config.terminator := by
  decide

theorem witness_FailedEncodeProducesNothing : ¬ ValidImage 20000 20000 4 0 [] ∧ ([] : List Byte).length < 2 ^ 64 := by
  unfold ValidImage
  decide

/-- A run that goes on, and one that ends with the image. -/
theorem witness_RepeatsBecomeRunsOf62AndOneRest :
    (begun 2).Inv ∧ (begun 2).phase = .running ∧ (begun 2).run = 0 ∧
      normalise (begun 2).cfgChannels ⟨0, 0, 0, 255⟩ = (begun 2).prev ∧ (begun 2).pos.toNat + 1 < (begun 2).total ∧
      (begun 2).pos.toNat + 2 = (begun 2).total ∧
      normalise (begun 2).cfgChannels ⟨1, 0, 0, 255⟩ ≠ (begun 2).prev :=
  ⟨begun_inv, rfl, rfl, by decide, by decide, by decide, by decide⟩

theorem witness_PendingRunCountsEqualPixels :
    validate ⟨3, 1, 4, 0, 12⟩ = .none ∧
      nextOf (fun t => (t.phase, t.run)) (pixels [⟨1, 1, 1, 255⟩, ⟨1, 1, 1, 255⟩] (start ⟨3, 1, 4, 0, 12⟩ State.reset)) =
        some (.running, 1) := by decide

theorem witness_DecoderMirrorsEveryChosenOp :
    Decoder.init.prev = (begun 2).prev ∧ Decoder.init.cache = (begun 2).cache ∧
      ∃ t, exec (chooseOp ⟨1, 2, 3, 4⟩ (begun 2)) (begun 2) = .next t := ⟨rfl, rfl, exec_answers _ _⟩

theorem witness_BlockReachesDoneAtThePorts :
    ({ begun 2 with inputs := [⟨1, 2, 3, 4⟩, ⟨1, 2, 3, 4⟩].flatMap offerAndDrain ++ [] } : State).Inv ∧
      (begun 2).outPending = [] ∧
      (begun 2).pos.toNat + ([⟨1, 2, 3, 4⟩, ⟨1, 2, 3, 4⟩] : List Pixel).length = (begun 2).total :=
  ⟨inv_of_emptyCache _ rfl (by decide) rfl (by decide) (by decide) (by decide) (by decide), rfl, by decide⟩

end Sys2Proof.Tests
end

section
/-! PROOF. The pixel word of 00_scope.md R11: each lane read back from a packed pixel, and the two round trips of `Pixel.pack`
and `Pixel.ofWord`. -/

namespace Sys2Proof

/-! ### The lanes of a packed pixel: skip the lanes below, then drop the lanes above -/

@[simp] theorem Pixel.pack_red (p : Pixel) : p.pack.extractLsb' 24 8 = p.r :=
  calc (p.r ++ p.g ++ p.b ++ p.a).extractLsb' 24 8
    _ = (p.r ++ p.g ++ p.b).extractLsb' 16 8 := BitVec.extractLsb'_append_eq_of_le (by decide)
    _ = (p.r ++ p.g).extractLsb' 8 8 := BitVec.extractLsb'_append_eq_of_le (by decide)
    _ = p.r := BitVec.extractLsb'_append_eq_left

@[simp] theorem Pixel.pack_green (p : Pixel) : p.pack.extractLsb' 16 8 = p.g :=
  calc (p.r ++ p.g ++ p.b ++ p.a).extractLsb' 16 8
    _ = (p.r ++ p.g ++ p.b).extractLsb' 8 8 := BitVec.extractLsb'_append_eq_of_le (by decide)
    _ = (p.r ++ p.g).extractLsb' 0 8 := BitVec.extractLsb'_append_eq_of_le (by decide)
    _ = p.g := BitVec.extractLsb'_append_eq_right

@[simp] theorem Pixel.pack_blue (p : Pixel) : p.pack.extractLsb' 8 8 = p.b :=
  calc (p.r ++ p.g ++ p.b ++ p.a).extractLsb' 8 8
    _ = (p.r ++ p.g ++ p.b).extractLsb' 0 8 := BitVec.extractLsb'_append_eq_of_le (by decide)
    _ = p.b := BitVec.extractLsb'_append_eq_right

@[simp] theorem Pixel.pack_alpha (p : Pixel) : p.pack.extractLsb' 0 8 = p.a :=
  BitVec.extractLsb'_append_eq_right

/-! ### The round trips -/

@[simp] theorem Pixel.ofWord_pack (p : Pixel) : Pixel.ofWord p.pack = p := by
  simp only [Pixel.ofWord, pack_red, pack_green, pack_blue, pack_alpha]

/-- The lanes of a word are adjacent fields, so joining them from the top down gives the word. -/
@[simp] theorem Pixel.pack_ofWord (w : Word) : (Pixel.ofWord w).pack = w :=
  calc (w.extractLsb' 24 8 ++ w.extractLsb' 16 8 ++ w.extractLsb' 8 8 ++ w.extractLsb' 0 8 : Word)
    _ = (w.extractLsb' 16 16 ++ w.extractLsb' 8 8 ++ w.extractLsb' 0 8 : Word) :=
      congrArg (fun x : BitVec 16 => x ++ w.extractLsb' 8 8 ++ w.extractLsb' 0 8)
        (BitVec.extractLsb'_append_extractLsb'_eq_extractLsb' rfl)
    _ = (w.extractLsb' 8 24 ++ w.extractLsb' 0 8 : Word) :=
      congrArg (fun x : BitVec 24 => x ++ w.extractLsb' 0 8) (BitVec.extractLsb'_append_extractLsb'_eq_extractLsb' rfl)
    _ = w.extractLsb' 0 32 := BitVec.extractLsb'_append_extractLsb'_eq_extractLsb' rfl
    _ = w := BitVec.extractLsb'_eq_self

/-- Settles O9, from the four lanes of a packed pixel and the two round trips. -/
theorem pixelWordLayout : Obligations.PixelWordLayout :=
  ⟨fun p => ⟨p.pack_red, p.pack_green, p.pack_blue, p.pack_alpha, p.ofWord_pack⟩, Pixel.pack_ofWord⟩

end Sys2Proof
end

section
/-! PROOF. What the ops and the commands leave unchanged: the frame of one op (rules R21, R28, R189), the frame of the
op-selector step and of a PIXEL, and with them the only events that write the phase, the latches and the error code (R33,
R113, R116). -/

namespace Sys2Proof.Machine

/-! ### One op -/

/-- The ops in three kinds: INDEX, RUN, and the four that share `encodeMissed` (R145). -/
theorem exec_kinds (i : Instr) (s : State) :
    (∃ slot, i = .index slot) ∨ (∃ n, i = .run n) ∨
      (storesColour i = true ∧ ∃ px, exec i s = .next (s.encodeMissed px i)) := by
  cases i with
  | index slot => exact .inl ⟨slot, rfl⟩
  | run n => exact .inr (.inl ⟨n, rfl⟩)
  | diff dr dg db => exact .inr (.inr ⟨rfl, _, exec_diff dr dg db s⟩)
  | luma dg drg dbg => exact .inr (.inr ⟨rfl, _, exec_luma dg drg dbg s⟩)
  | rgb r g b => exact .inr (.inr ⟨rfl, _, exec_rgb r g b s⟩)
  | rgba r g b a => exact .inr (.inr ⟨rfl, _, exec_rgba r g b a s⟩)

/-- Settles O17, by the three kinds of ops: INDEX sets `prev` alone, RUN sets `run` alone, and the others store their pixel in
its own slot. -/
theorem opsTouchOnlyTheirOwnState : Obligations.OpsTouchOnlyTheirOwnState := by
  intro i s t h
  rcases exec_kinds i s with ⟨slot, rfl⟩ | ⟨n, rfl⟩ | ⟨hs, px, e⟩
  · cases h
    exact ⟨rfl, rfl, rfl, rfl, rfl, rfl, rfl, rfl, fun _ _ => rfl, fun _ => rfl, nofun, fun _ _ => rfl, nofun⟩
  · cases h
    exact ⟨rfl, rfl, rfl, rfl, rfl, rfl, rfl, rfl, fun _ _ => rfl, fun _ => rfl, nofun, nofun, fun _ _ => rfl⟩
  · cases e.symm.trans h
    have hslot := State.encodeMissed_cacheAt s px i
    refine ⟨rfl, rfl, rfl, rfl, rfl, rfl, rfl, rfl, fun k hk => (hslot k).trans (if_neg hk), fun hn => ?_,
      fun _ => ⟨(hslot (hash6 px)).trans (if_pos rfl), rfl⟩, fun _ _ => rfl, ?_⟩
    · exact absurd (hs.symm.trans hn) (by decide)
    · rintro n rfl
      cases hs

/-! ### The op-selector step and PIXEL -/

/-- R24: `total` is a function of the latches. -/
theorem State.total_congr {s t : State} (h : t.latched = s.latched) : t.total = s.total :=
  congrArg (fun a : StartArgs => a.width.toNat * a.height.toNat) h

theorem State.cfgChannels_congr {s t : State} (h : t.latched = s.latched) : t.cfgChannels = s.cfgChannels :=
  congrArg StartArgs.channels h

/-! A flush writes neither the control state nor the latches nor the position. -/

@[simp] theorem State.flushed_phase (s : State) : s.flushed.phase = s.phase := by rw [flushed_eq]; rfl
@[simp] theorem State.flushed_errCode (s : State) : s.flushed.errCode = s.errCode := by rw [flushed_eq]; rfl
@[simp] theorem State.flushed_latched (s : State) : s.flushed.latched = s.latched := by rw [flushed_eq]; rfl
@[simp] theorem State.flushed_pos (s : State) : s.flushed.pos = s.pos := by rw [flushed_eq]; rfl

/-- The op-selector step writes neither the control state nor the latches nor the position. -/
theorem opSelect_frame {p : Pixel} {s t : State} (h : opSelect p s = .next t) :
    t.phase = s.phase ∧ t.errCode = s.errCode ∧ t.latched = s.latched ∧ t.pos = s.pos := by
  rcases opSelect_cases p s with ⟨-, -, e⟩ | ⟨-, -, -, e⟩ | ⟨-, -, e⟩ | ⟨-, -, e⟩
  · cases e.symm.trans h
    exact ⟨rfl, rfl, rfl, rfl⟩
  · cases e.symm.trans h
    exact ⟨rfl, rfl, rfl, rfl⟩
  · cases e.symm.trans h
    simp
  · cases e.symm.trans h
    simp

/-- PIXEL does nothing, or is an op-selector step in RUNNING and then the end of the step (R100, R112). -/
theorem pixel_cases {p : Pixel} {s t : State} (h : pixel p s = .next t) :
    (s.phase ≠ .running ∧ t = s) ∨ (s.phase = .running ∧ ∃ u, opSelect p s = .next u ∧ t = u.finishPixel) := by
  by_cases hr : s.phase = .running
  · obtain ⟨u, hu, e⟩ := pixel_running p s hr
    exact .inr ⟨hr, u, hu, by cases e.symm.trans h; rfl⟩
  · exact .inl ⟨hr, by cases (pixel_not_running p s hr).symm.trans h; rfl⟩

/-- R207: no PIXEL stops. -/
theorem pixel_answers (p : Pixel) (s : State) : ∃ t, pixel p s = .next t := by
  by_cases hr : s.phase = .running
  · obtain ⟨u, -, e⟩ := pixel_running p s hr
    exact ⟨u.finishPixel, e⟩
  · exact ⟨s, pixel_not_running p s hr⟩

@[simp] theorem State.finishPixel_latched (s : State) : s.finishPixel.latched = s.latched := by
  rcases finishPixel_cases s with ⟨-, e⟩ | ⟨-, e⟩ <;> rw [e] <;> rfl

@[simp] theorem State.finishPixel_errCode (s : State) : s.finishPixel.errCode = s.errCode := by
  rcases finishPixel_cases s with ⟨-, e⟩ | ⟨-, e⟩ <;> rw [e] <;> rfl

/-- R33, R116: a PIXEL writes neither the latches nor the error code. -/
theorem pixel_keeps_latches {p : Pixel} {s t : State} (h : pixel p s = .next t) :
    t.latched = s.latched ∧ t.errCode = s.errCode := by
  rcases pixel_cases h with ⟨-, rfl⟩ | ⟨-, u, hu, rfl⟩
  · exact ⟨rfl, rfl⟩
  · obtain ⟨-, herr, hlat, -⟩ := opSelect_frame hu
    exact ⟨u.finishPixel_latched.trans hlat, u.finishPixel_errCode.trans herr⟩

/-- R113: a PIXEL changes the phase only at the last pixel, to DONE. -/
theorem pixel_phase {p : Pixel} {s t : State} (h : pixel p s = .next t) :
    t.phase = s.phase ∨ ((s.pos + 1).toNat = s.total ∧ t.phase = .done) := by
  rcases pixel_cases h with ⟨-, rfl⟩ | ⟨-, u, hu, rfl⟩
  · exact .inl rfl
  · obtain ⟨hphase, -, hlat, hpos⟩ := opSelect_frame hu
    rcases finishPixel_cases u with ⟨hlast, e⟩ | ⟨-, e⟩
    · exact .inr ⟨by rw [← hpos, ← State.total_congr hlat, hlast], by rw [e]; rfl⟩
    · exact .inl (by rw [e]; exact hphase)

/-! ### START and a step at the ports -/

/-- R110: START outside RUNNING ends in RUNNING or ERROR. -/
theorem start_phase (a : StartArgs) (s : State) (h : s.phase ≠ .running) :
    (start a s).phase = .running ∨ (start a s).phase = .error := by
  rcases start_cases a s h with ⟨-, e⟩ | ⟨-, e⟩ <;> rw [e]
  · exact .inl rfl
  · exact .inr rfl

/-- Settles O31, by the command the step takes. -/
theorem phaseChangesOnlyByItsCommands : Obligations.PhaseChangesOnlyByItsCommands := by
  intro s t h hne
  rcases step_cases s with ⟨hrst, e⟩ | ⟨hrst, hstart, hphase, e⟩ | ⟨hrst, hphase, hpix, hout, e⟩ | ⟨-, -, -, e⟩
  · cases e.symm.trans h
    exact .inl ⟨hrst, rfl⟩
  · cases e.symm.trans h
    exact .inr (.inl ⟨hrst, hstart, hphase, start_phase s.ports.cfg s.beat hphase⟩)
  · rcases pixel_phase (e.symm.trans h) with hsame | ⟨hlast, hdone⟩
    · exact absurd hsame hne
    · exact .inr (.inr ⟨hrst, hphase, hpix, hout, hlast, hdone⟩)
  · cases e.symm.trans h
    exact absurd rfl hne

/-- Settles O32: what is left without RESET and START is a PIXEL or the output handshake. -/
theorem latchesAreWrittenByStartAndResetOnly : Obligations.LatchesAreWrittenByStartAndResetOnly := by
  intro s t h hrst hno
  rcases step_cases s with ⟨hrst', -⟩ | ⟨-, hstart, hphase, -⟩ | ⟨-, -, -, -, e⟩ | ⟨-, -, -, e⟩
  · exact absurd (hrst'.symm.trans hrst) (by decide)
  · rcases hno with hno | hno
    · exact absurd (hstart.symm.trans hno) (by decide)
    · exact absurd hno hphase
  · exact pixel_keeps_latches (s := s.beat) (e.symm.trans h)
  · cases e.symm.trans h
    exact ⟨rfl, rfl⟩

end Sys2Proof.Machine
end

section
/-! PROOF. The state invariant of rule R36, with R31 and R33: each state operation that a PIXEL is built from keeps it, so the
op-selector step does, so every step does; and the status outputs of R32 under it. -/

namespace Sys2Proof.Machine

/-! ### The state operations -/

variable {s t : State} {p : Pixel}

theorem doReset_inv (s : State) : (doReset s).Inv where
  run_le := Nat.zero_le 61
  cache_slots := fun k => .inl (State.reset_cacheAt k)
  opaque_prev := fun _ _ => rfl
  opaque_cache := fun _ _ k => .inl (State.reset_cacheAt k)
  done_complete := nofun
  running_before_end := nofun
  legal_latches := fun h => by rcases h with h | h <;> cases h
  code_iff_error := ⟨fun h => absurd rfl h, nofun⟩

theorem State.Inv.beat (h : s.Inv) : s.beat.Inv :=
  ⟨h.run_le, h.cache_slots, h.opaque_prev, h.opaque_cache, h.done_complete, h.running_before_end, h.legal_latches,
    h.code_iff_error⟩

theorem State.Inv.emit (h : s.Inv) (bytes : List Byte) : (s.emit bytes).Inv :=
  ⟨h.run_le, h.cache_slots, h.opaque_prev, h.opaque_cache, h.done_complete, h.running_before_end, h.legal_latches,
    h.code_iff_error⟩

theorem State.Inv.setRun {n : BitVec 6} (h : s.Inv) (hphase : s.phase = .running) (hn : n.toNat ≤ 61) :
    (s.setRun n).Inv where
  run_le := hn
  cache_slots := h.cache_slots
  opaque_prev := h.opaque_prev
  opaque_cache := h.opaque_cache
  done_complete := fun hdone => nomatch hphase.symm.trans hdone
  running_before_end := h.running_before_end
  legal_latches := h.legal_latches
  code_iff_error := h.code_iff_error

theorem State.Inv.setPrev (h : s.Inv) (hp : s.cfgChannels = 3 → p.a = 255) : (s.setPrev p).Inv :=
  ⟨h.run_le, h.cache_slots, fun hch _ => hp hch, h.opaque_cache, h.done_complete, h.running_before_end, h.legal_latches,
    h.code_iff_error⟩

theorem State.Inv.cacheWrite (h : s.Inv) (hp : s.cfgChannels = 3 → p.a = 255) : (s.cacheWrite (hash6 p) p).Inv where
  run_le := h.run_le
  cache_slots := fun k => by
    rw [State.cacheAt_cacheWrite]
    split
    · next hk => exact .inr hk.symm
    · exact h.cache_slots k
  opaque_prev := h.opaque_prev
  opaque_cache := fun hch hact k => by
    rw [State.cacheAt_cacheWrite]
    split
    · exact .inr (hp hch)
    · exact h.opaque_cache hch hact k
  done_complete := h.done_complete
  running_before_end := h.running_before_end
  legal_latches := h.legal_latches
  code_iff_error := h.code_iff_error

theorem State.Inv.encodeMissed (h : s.Inv) (hp : s.cfgChannels = 3 → p.a = 255) (i : Instr) :
    (s.encodeMissed p i).Inv :=
  ((h.cacheWrite hp).emit (encode i)).setPrev hp

theorem State.Inv.flushed (h : s.Inv) (hphase : s.phase = .running) : s.flushed.Inv := by
  rw [State.flushed_eq]
  exact (h.emit _).setRun hphase (by decide)

/-! ### START -/

/-- R107 to R109: the state after a START with valid operands meets the invariant, whatever state it was taken in. -/
theorem start_valid_inv {a : StartArgs} (hphase : s.phase ≠ .running) (ha : validate a = .none) : (start a s).Inv := by
  rcases start_cases a s hphase with ⟨-, e⟩ | ⟨hbad, -⟩
  · rw [e]
    have hslots := (s.latch a).clearOut.initRunning_cacheAt
    obtain ⟨⟨hw, hh, -⟩, -⟩ := (validate_none_iff a).1 ha
    exact
      { run_le := Nat.zero_le 61
        cache_slots := fun k => .inl (hslots k)
        opaque_prev := fun _ _ => rfl
        opaque_cache := fun _ _ k => .inl (hslots k)
        done_complete := nofun
        running_before_end := fun _ => Nat.mul_pos hw hh
        legal_latches := fun _ => ha
        code_iff_error := ⟨fun hc => absurd rfl hc, nofun⟩ }
  · exact absurd ha hbad

/-- A START outside RUNNING, failed or not, keeps the invariant; a failed one writes neither `run` nor the cache (R202). -/
theorem State.Inv.start (h : s.Inv) (hphase : s.phase ≠ .running) (a : StartArgs) : (start a s).Inv := by
  rcases start_cases a s hphase with ⟨ha, -⟩ | ⟨hbad, e⟩
  · exact start_valid_inv hphase ha
  · rw [e]
    have hidle : ¬ (((s.latch a).clearOut).raiseError (validate a)).active := by rintro (h | h) <;> cases h
    exact
      { run_le := h.run_le
        cache_slots := h.cache_slots
        opaque_prev := fun _ hact => absurd hact hidle
        opaque_cache := fun _ hact => absurd hact hidle
        done_complete := nofun
        running_before_end := nofun
        legal_latches := fun hact => absurd hact hidle
        code_iff_error := ⟨fun _ => rfl, fun _ => hbad⟩ }

/-! ### PIXEL -/

/-- R133: a normalised pixel is opaque in 3-channel mode. -/
theorem normalise_opaque {channels : Byte} (h : channels = 3) (p : Pixel) : (normalise channels p).a = 255 := by
  rw [normalise, if_pos h]

/-- R36 item 1: `run + 1` is exact, and it stays below 62 when no flush is due. -/
theorem run_succ_toNat {r : BitVec 6} (h : r.toNat ≤ 61) : (r + 1).toNat = r.toNat + 1 := by
  rw [BitVec.toNat_add]
  exact Nat.mod_eq_of_lt (by have : (1 : BitVec 6).toNat = 1 := rfl; omega)

theorem run_succ_le {r : BitVec 6} (h : r.toNat ≤ 61) (hne : r + 1 ≠ 62) : (r + 1).toNat ≤ 61 := by
  have hsucc := run_succ_toNat h
  have : (r + 1).toNat ≠ 62 := fun e => hne (BitVec.eq_of_toNat_eq e)
  omega

theorem opSelect_inv (hi : s.Inv) (hphase : s.phase = .running) (h : opSelect p s = .next t) : t.Inv := by
  have hopaque (hch : s.cfgChannels = 3) := normalise_opaque hch p
  have hflush := hi.flushed hphase
  have hchannels : s.flushed.cfgChannels = s.cfgChannels := State.cfgChannels_congr s.flushed_latched
  rcases opSelect_cases p s with ⟨-, -, e⟩ | ⟨-, hne, -, e⟩ | ⟨-, -, e⟩ | ⟨-, -, e⟩
  · cases e.symm.trans h
    exact (hi.emit _).setRun hphase (by decide)
  · cases e.symm.trans h
    exact hi.setRun hphase (run_succ_le hi.run_le hne)
  · cases e.symm.trans h
    exact (hflush.emit _).setPrev fun hch => hopaque (hchannels.symm.trans hch)
  · cases e.symm.trans h
    exact hflush.encodeMissed (fun hch => hopaque (hchannels.symm.trans hch)) _

/-- R141, R142: at the last pixel no run stays pending. -/
theorem opSelect_run_of_last (hlast : s.pos.toNat + 1 = s.total) (h : opSelect p s = .next t) : t.run = 0 := by
  rcases opSelect_cases p s with ⟨-, -, e⟩ | ⟨-, -, hne, -⟩ | ⟨-, -, e⟩ | ⟨-, -, e⟩
  · cases e.symm.trans h
    rfl
  · exact absurd hlast hne
  · cases e.symm.trans h
    exact s.flushed_run
  · cases e.symm.trans h
    exact s.flushed_run

/-- R36 item 6 with the ceiling of R203: `pos + 1` does not wrap. -/
theorem State.Inv.pos_succ (h : s.Inv) (hphase : s.phase = .running) : (s.pos + 1).toNat = s.pos.toNat + 1 := by
  obtain ⟨⟨-, -, hceiling⟩, -⟩ := (validate_none_iff s.latched).1 (h.legal_latches (.inl hphase))
  have hceiling : s.total < 400000000 := hceiling
  have hpos := h.running_before_end hphase
  rw [BitVec.toNat_add]
  exact Nat.mod_eq_of_lt (by have : (1 : Word).toNat = 1 := rfl; omega)

theorem State.Inv.finishPixel (h : s.Inv) (hphase : s.phase = .running)
    (hrun : s.pos.toNat + 1 = s.total → s.run = 0) : s.finishPixel.Inv := by
  have hsucc := h.pos_succ hphase
  have hcode : s.errCode = .none := by
    by_contra hc
    exact nomatch hphase.symm.trans (h.code_iff_error.1 hc)
  rcases finishPixel_cases s with ⟨hlast, e⟩ | ⟨hmore, e⟩ <;> rw [e]
  · exact
      { run_le := h.run_le
        cache_slots := h.cache_slots
        opaque_prev := fun hch _ => h.opaque_prev hch (.inl hphase)
        opaque_cache := fun hch _ => h.opaque_cache hch (.inl hphase)
        done_complete := fun _ => ⟨hlast, hrun (hsucc.symm.trans hlast)⟩
        running_before_end := nofun
        legal_latches := fun _ => h.legal_latches (.inl hphase)
        code_iff_error := ⟨fun hc => absurd hcode hc, nofun⟩ }
  · exact
      { run_le := h.run_le
        cache_slots := h.cache_slots
        opaque_prev := h.opaque_prev
        opaque_cache := h.opaque_cache
        done_complete := fun hdone => nomatch hphase.symm.trans hdone
        running_before_end := fun _ =>
          lt_of_le_of_ne (hsucc.trans_le (Nat.succ_le_of_lt (h.running_before_end hphase))) hmore
        legal_latches := h.legal_latches
        code_iff_error := h.code_iff_error }

theorem State.Inv.pixel (hi : s.Inv) (h : pixel p s = .next t) : t.Inv := by
  rcases pixel_cases h with ⟨-, rfl⟩ | ⟨hphase, u, hu, rfl⟩
  · exact hi
  · obtain ⟨hphase', -, hlat, hpos⟩ := opSelect_frame hu
    refine (opSelect_inv hi hphase hu).finishPixel (hphase'.trans hphase) fun hlast => ?_
    rw [hpos, State.total_congr hlat] at hlast
    exact opSelect_run_of_last hlast hu

/-! ### Every step -/

/-- Settles O37: the reset state is what RESET leaves when the host drives nothing. -/
theorem resetMeetsTheStateInvariant : Obligations.ResetMeetsTheStateInvariant := doReset_inv State.reset

/-- Settles O38: the invariant is kept by the output handshake, and then by each command. -/
theorem everyStepKeepsTheStateInvariant : Obligations.EveryStepKeepsTheStateInvariant := by
  intro s t hi h
  rcases step_cases s with ⟨-, e⟩ | ⟨-, -, hphase, e⟩ | ⟨-, -, -, -, e⟩ | ⟨-, -, -, e⟩
  · cases e.symm.trans h
    exact doReset_inv s.beat
  · cases e.symm.trans h
    exact hi.beat.start hphase s.ports.cfg
  · exact hi.beat.pixel (e.symm.trans h)
  · cases e.symm.trans h
    exact hi.beat

/-! ### The status outputs -/

/-- R31: `err_code` is 0 exactly when no error is recorded. -/
theorem State.errCodePort_ne_zero_iff (s : State) : s.errCodePort ≠ 0 ↔ s.errCode ≠ .none := by
  unfold State.errCodePort
  cases s.errCode <;> decide

/-- Settles O36: the outputs are read off their definitions, and the error code off the invariant. -/
theorem statusOutputsFollowThePhase : Obligations.StatusOutputsFollowThePhase := by
  intro s
  have hvalid : s.outValid = true ↔ s.outPending ≠ [] := by simp [State.outValid]
  refine ⟨?_, rfl, rfl, hvalid, fun b rest h => ?_, fun hi => ⟨?_, ?_, ?_, ?_, ?_, ?_, ?_, ?_⟩⟩
  · unfold State.errCodePort
    cases s.errCode <;> rfl
  · rw [State.outByte, h]
    rfl
  · exact decide_eq_true_iff
  · exact decide_eq_true_iff
  · exact decide_eq_true_iff
  · rw [s.errCodePort_ne_zero_iff, hi.code_iff_error]
    exact decide_eq_true_iff.symm
  · simp [State.pixReady, State.busy, State.outValid]
  · simp [State.startReady, State.busy]
  · unfold State.busy State.isDone State.isError
    cases s.phase <;> decide
  · unfold State.isDone State.isError
    cases s.phase <;> decide

end Sys2Proof.Machine
end

section
/-! PROOF. Rule R36 item 4, over the pixels of an encode: while RUNNING, the pending run counts pixels at the end of the input
that all equal `prev`. -/

namespace Sys2Proof.Machine

/-- The last `run` pixels of the history all equal `prev`, after normalisation (R133). -/
def State.CountsRepeats (history : List Pixel) (s : State) : Prop :=
  ∃ tail, tail <:+ history ∧ tail.length = s.run.toNat ∧ ∀ p ∈ tail, normalise s.cfgChannels p = s.prev

theorem State.countsRepeats_of_run_eq_zero {s : State} (h : s.run = 0) (history : List Pixel) :
    s.CountsRepeats history :=
  ⟨[], List.nil_suffix, by rw [h]; rfl, nofun⟩

/-- The end of a PIXEL step writes none of the fields the count speaks of. -/
theorem State.CountsRepeats.finishPixel {s : State} {history : List Pixel} (h : s.CountsRepeats history) :
    s.finishPixel.CountsRepeats history := by
  rcases finishPixel_cases s with ⟨-, e⟩ | ⟨-, e⟩ <;> rw [e] <;> exact h

/-- R140 to R142: a repeat of `prev` that is not flushed extends the run by itself; in every other case `run` is 0. -/
theorem opSelect_countsRepeats {p : Pixel} {s t : State} {history : List Pixel} (hi : s.Inv)
    (hs : s.CountsRepeats history) (h : opSelect p s = .next t) : t.CountsRepeats (history ++ [p]) := by
  rcases opSelect_cases p s with ⟨-, -, e⟩ | ⟨hp, -, -, e⟩ | ⟨-, -, e⟩ | ⟨-, -, e⟩
  · cases e.symm.trans h
    exact State.countsRepeats_of_run_eq_zero rfl _
  · cases e.symm.trans h
    obtain ⟨tail, ⟨before, hbefore⟩, hlen, heq⟩ := hs
    refine ⟨tail ++ [p], ⟨before, by rw [← List.append_assoc, hbefore]⟩, ?_, ?_⟩
    · rw [List.length_append, hlen]
      exact (run_succ_toNat hi.run_le).symm
    · intro q hq
      rcases List.mem_append.1 hq with hq | hq
      · exact heq q hq
      · rw [List.mem_singleton.1 hq]
        exact hp
  · cases e.symm.trans h
    refine State.countsRepeats_of_run_eq_zero ?_ _
    exact s.flushed_run
  · cases e.symm.trans h
    refine State.countsRepeats_of_run_eq_zero ?_ _
    exact s.flushed_run

/-- PIXELs keep the latches, and what the run counts while RUNNING. -/
theorem pixels_countsRepeats (ps : List Pixel) : ∀ {s t : State} {history : List Pixel}, s.Inv →
    (s.phase = .running → s.CountsRepeats history) → pixels ps s = .next t →
    t.latched = s.latched ∧ (t.phase = .running → t.CountsRepeats (history ++ ps)) := by
  induction ps with
  | nil =>
    intro s t history _ hs h
    cases h
    exact ⟨rfl, by rwa [List.append_nil]⟩
  | cons p ps ih =>
    intro s t history hi hs h
    obtain ⟨u, hu⟩ := pixel_answers p s
    have hrest : pixels ps u = .next t := by
      rwa [pixels, hu, andThen_next] at h
    have hcount : u.phase = .running → u.CountsRepeats (history ++ [p]) := by
      rcases pixel_cases hu with ⟨hphase, rfl⟩ | ⟨hphase, v, hv, rfl⟩
      · exact fun hr => absurd hr hphase
      · exact fun _ => (opSelect_countsRepeats hi (hs hphase) hv).finishPixel
    obtain ⟨hlat, ht⟩ := ih (hi.pixel hu) hcount hrest
    rw [List.append_assoc] at ht
    exact ⟨hlat.trans (pixel_keeps_latches hu).1, ht⟩

/-- START outside RUNNING latches its operands and, when they are valid, clears `run` (R105, R108). -/
theorem start_valid_latched_run {a : StartArgs} {s : State} (hphase : s.phase ≠ .running) (ha : validate a = .none) :
    (start a s).latched = a ∧ (start a s).run = 0 := by
  rcases start_cases a s hphase with ⟨-, e⟩ | ⟨hbad, -⟩
  · rw [e]
    exact ⟨rfl, rfl⟩
  · exact absurd ha hbad

/-- Settles O45, by induction over the pixels from the empty history after START. -/
theorem pendingRunCountsEqualPixels : Obligations.PendingRunCountsEqualPixels := by
  intro a ps s t hphase ha h hrunning
  obtain ⟨hlat, hrun⟩ := start_valid_latched_run hphase ha
  obtain ⟨hkept, hcount⟩ := pixels_countsRepeats ps (history := []) (start_valid_inv hphase ha)
    (fun _ => State.countsRepeats_of_run_eq_zero hrun []) h
  obtain ⟨tail, hsuffix, hlen, heq⟩ := hcount hrunning
  have hchannels : t.cfgChannels = a.channels := congrArg StartArgs.channels (hkept.trans hlat)
  rw [List.nil_append] at hsuffix
  rw [← hlen, ← List.suffix_iff_eq_drop.1 hsuffix, ← hchannels]
  exact ⟨hsuffix.length_le, heq⟩

end Sys2Proof.Machine
end

section
/-! PROOF. The stream invariant (rules R28, R56, R114, R170, R174, R176, R177). The op-selector step is charged at most
`channels + 1` bytes a pixel and at least one, a pending run counted as the one byte it owes; the end of a PIXEL turns the
charge into the bounds of a complete stream. -/

namespace Sys2Proof.Machine

/-! ### The charge of one pixel -/

theorem State.owed_of_run_eq_zero {s : State} (h : s.run = 0) : s.owed = 0 := if_pos h

theorem State.owed_of_run_ne_zero {s : State} (h : s.run ≠ 0) : s.owed = 1 := if_neg h

/-- R143: a flush pays what is owed. -/
theorem State.flushOps_length (s : State) : (s.flushOps.flatMap encode).length = s.owed := by
  unfold State.flushOps State.owed
  split <;> rfl

/-- R71: every op has its tag byte. -/
theorem encode_length_pos (i : Instr) : 1 ≤ (encode i).length := by
  cases i <;> simp [encode]

/-- R146 reaches RGBA only on a change of alpha, which 3-channel mode excludes (R36 item 3); so an op has at most one byte more
than a pixel. -/
theorem chooseOp_length_le {s : State} (hi : s.Inv) (hphase : s.phase = .running) (p : Pixel) :
    (encode (chooseOp (normalise s.cfgChannels p) s)).length ≤ s.cfgChannels.toNat + 1 := by
  obtain ⟨-, ⟨hlegal, -⟩, -⟩ := (validate_none_iff s.latched).1 (hi.legal_latches (.inl hphase))
  have hlegal : s.cfgChannels = 3 ∨ s.cfgChannels = 4 := hlegal
  have hfour : 4 ≤ s.cfgChannels.toNat + 1 := by rcases hlegal with h | h <;> rw [h] <;> decide
  rcases chooseOp_cases (normalise s.cfgChannels p) s with
    ⟨-, e⟩ | ⟨-, halpha, e⟩ | ⟨-, -, -, e⟩ | ⟨-, -, -, -, e⟩ | ⟨-, -, -, -, e⟩ <;> rw [e]
  · exact le_trans (by decide : 1 ≤ 4) hfour
  · rcases hlegal with h3 | h4
    · exact absurd ((normalise_opaque h3 p).trans (hi.opaque_prev h3 (.inl hphase)).symm) halpha
    · rw [h4]
      exact le_refl 5
  · exact le_trans (by decide : 1 ≤ 4) hfour
  · exact le_trans (by decide : 2 ≤ 4) hfour
  · exact hfour

/-- The bytes `t` has emitted beyond those of `s`, counted by `out_count` (R28), pay for one pixel: at least one byte and at most
`channels + 1`, a pending run counted as the byte it owes (R174, R176). -/
def State.PaysOnePixel (s t : State) : Prop :=
  ∃ bytes, t.out = s.out ++ bytes ∧ t.outCount = s.outCount + BitVec.ofNat 32 bytes.length ∧
    1 ≤ bytes.length + t.owed ∧ bytes.length + t.owed ≤ s.owed + (s.cfgChannels.toNat + 1)

@[simp] theorem State.flushed_out (s : State) : s.flushed.out = s.out ++ s.flushOps.flatMap encode := by
  rw [flushed_eq]; rfl

@[simp] theorem State.flushed_outCount (s : State) :
    s.flushed.outCount = s.outCount + BitVec.ofNat 32 (s.flushOps.flatMap encode).length := by
  rw [flushed_eq]; rfl

/-- A flush and then one op that fits a pixel. -/
theorem State.paysOnePixel_of_op {s t : State} {i : Instr} (hout : t.out = s.flushed.out ++ encode i)
    (hcount : t.outCount = s.flushed.outCount + BitVec.ofNat 32 (encode i).length) (hrun : t.run = 0)
    (hle : (encode i).length ≤ s.cfgChannels.toNat + 1) : s.PaysOnePixel t := by
  have hflush := s.flushOps_length
  have hop := encode_length_pos i
  refine ⟨s.flushOps.flatMap encode ++ encode i, ?_, ?_, ?_⟩
  · rw [hout, flushed_out, List.append_assoc]
  · rw [hcount, flushed_outCount, List.length_append, BitVec.ofNat_add, BitVec.add_assoc]
  · rw [List.length_append, hflush, owed_of_run_eq_zero hrun]
    omega

theorem opSelect_paysOnePixel {p : Pixel} {s t : State} (hi : s.Inv) (hphase : s.phase = .running)
    (h : opSelect p s = .next t) : s.PaysOnePixel t := by
  have hle := chooseOp_length_le hi hphase p
  rcases opSelect_cases p s with ⟨-, -, e⟩ | ⟨-, -, -, e⟩ | ⟨-, -, e⟩ | ⟨-, -, e⟩
  · cases e.symm.trans h
    refine ⟨encode (.run (s.run + 1).toNat), rfl, rfl, ?_⟩
    rw [State.owed_of_run_eq_zero rfl]
    exact ⟨le_refl 1, Nat.le_add_left 1 _⟩
  · cases e.symm.trans h
    refine ⟨[], (List.append_nil _).symm, (BitVec.add_zero _).symm, ?_⟩
    have hrun : s.accumulate.run ≠ 0 := fun h0 => by
      have hsucc := run_succ_toNat hi.run_le
      rw [show s.run + 1 = 0 from h0] at hsucc
      exact absurd hsucc.symm (Nat.succ_ne_zero _)
    rw [State.owed_of_run_ne_zero hrun]
    exact ⟨le_refl 1, Nat.le_add_left 1 _⟩
  · cases e.symm.trans h
    exact State.paysOnePixel_of_op rfl rfl s.flushed_run hle
  · cases e.symm.trans h
    exact State.paysOnePixel_of_op rfl rfl s.flushed_run hle

/-! ### The commands -/

variable {s t : State} {p : Pixel}

theorem doReset_streamInv (s : State) : (doReset s).StreamInv where
  count := rfl
  silent := fun _ => rfl
  header_first := fun h => by rcases h with h | h <;> cases h
  size_running := nofun
  some_op := nofun
  terminator_last := nofun
  size_done := nofun
  size_min := nofun

theorem State.StreamInv.beat (h : s.StreamInv) : s.beat.StreamInv :=
  ⟨h.count, h.silent, h.header_first, h.size_running, h.some_op, h.terminator_last, h.size_done, h.size_min⟩

/-- An accepted START leaves exactly the header, or nothing when it fails (R105, R107). -/
theorem start_streamInv (a : StartArgs) (hphase : s.phase ≠ .running) : (start a s).StreamInv := by
  rcases start_cases a s hphase with ⟨-, e⟩ | ⟨-, e⟩ <;> rw [e]
  · exact
      { count := rfl
        silent := fun h => absurd (.inl rfl) h
        header_first := fun _ => List.prefix_refl (header a)
        size_running := fun _ => Nat.le_add_right 14 _
        some_op := fun _ h => absurd rfl h
        terminator_last := nofun
        size_done := nofun
        size_min := nofun }
  · exact
      { count := rfl
        silent := fun _ => rfl
        header_first := fun h => by rcases h with h | h <;> cases h
        size_running := nofun
        some_op := nofun
        terminator_last := nofun
        size_done := nofun
        size_min := nofun }

/-- The stream in the middle of a PIXEL, when the op-selector step is done and `pos` not yet advanced: the stream invariant of
RUNNING with the charge of one pixel more. -/
structure State.PixelEmitted (s : State) : Prop where
  count : s.outCount = BitVec.ofNat 32 s.out.length
  header_first : header s.latched <+: s.out
  size_le : s.out.length + s.owed ≤ 14 + (s.pos.toNat + 1) * (s.cfgChannels.toNat + 1)
  some_op : 15 ≤ s.out.length + s.owed

theorem opSelect_pixelEmitted (hi : s.Inv) (hs : s.StreamInv) (hphase : s.phase = .running)
    (h : opSelect p s = .next t) : t.PixelEmitted := by
  obtain ⟨bytes, hout, hcount, hmin, hmax⟩ := opSelect_paysOnePixel hi hphase h
  obtain ⟨-, -, hlat, hpos⟩ := opSelect_frame h
  have hheader := hs.header_first (.inl hphase)
  have hfourteen : 14 ≤ s.out.length := hheader.length_le
  have hsize := hs.size_running hphase
  have hlen : t.out.length = s.out.length + bytes.length := by rw [hout, List.length_append]
  exact
    { count := by rw [hcount, hs.count, hlen, BitVec.ofNat_add]
      header_first := by
        rw [hlat, hout]
        exact hheader.trans (List.prefix_append _ _)
      size_le := by
        rw [hlen, hpos, State.cfgChannels_congr hlat, Nat.succ_mul]
        omega
      some_op := by omega }

/-- R112, R113: advancing `pos` uses up the charge, and at the last pixel, with no run pending, the terminator ends the
stream. -/
theorem State.PixelEmitted.finishPixel (h : s.PixelEmitted) (hphase : s.phase = .running)
    (hsucc : (s.pos + 1).toNat = s.pos.toNat + 1) (hrun : s.pos.toNat + 1 = s.total → s.run = 0) :
    s.finishPixel.StreamInv := by
  obtain ⟨hcount, hheader, hsize, hsome⟩ := h
  rcases finishPixel_cases s with ⟨hlast, e⟩ | ⟨-, e⟩ <;> rw [e]
  · rw [hsucc] at hlast
    rw [owed_of_run_eq_zero (hrun hlast)] at hsize hsome
    have hlen : (s.out ++ Config.terminator).length = s.out.length + 8 := List.length_append
    exact
      { count := by
          show s.outCount + BitVec.ofNat 32 8 = BitVec.ofNat 32 (s.out ++ Config.terminator).length
          rw [hcount, hlen, BitVec.ofNat_add]
        silent := fun h => absurd (.inr rfl) h
        header_first := fun _ => hheader.trans (List.prefix_append _ _)
        size_running := nofun
        some_op := nofun
        terminator_last := fun _ => List.suffix_append _ _
        size_done := fun _ => by
          show (s.out ++ Config.terminator).length ≤ s.total * (s.cfgChannels.toNat + 1) + 22
          rw [hlen, ← hlast]
          omega
        size_min := fun _ => by
          show 23 ≤ (s.out ++ Config.terminator).length
          omega }
  · have hnot : s.phase ≠ .done := fun hd => nomatch hphase.symm.trans hd
    exact
      { count := hcount
        silent := fun h => absurd (.inl hphase) h
        header_first := fun _ => hheader
        size_running := fun _ => by
          rw [advancePos_pos, hsucc]
          exact hsize
        some_op := fun _ _ => hsome
        terminator_last := fun h => absurd h hnot
        size_done := fun h => absurd h hnot
        size_min := fun h => absurd h hnot }

theorem State.StreamInv.pixel (hs : s.StreamInv) (hi : s.Inv) (h : pixel p s = .next t) : t.StreamInv := by
  rcases pixel_cases h with ⟨-, rfl⟩ | ⟨hphase, u, hu, rfl⟩
  · exact hs
  · obtain ⟨hphase', -, hlat, hpos⟩ := opSelect_frame hu
    have hrunning := hphase'.trans hphase
    refine (opSelect_pixelEmitted hi hs hphase hu).finishPixel hrunning ((opSelect_inv hi hphase hu).pos_succ hrunning)
      fun hlast => ?_
    rw [hpos, State.total_congr hlat] at hlast
    exact opSelect_run_of_last hlast hu

/-! ### Every step -/

/-- Settles O39: the reset state is what RESET leaves when the host drives nothing. -/
theorem resetMeetsTheStreamInvariant : Obligations.ResetMeetsTheStreamInvariant := doReset_streamInv State.reset

/-- Settles O40: the output handshake writes nothing of the history, and each command keeps the invariant. -/
theorem everyStepKeepsTheStreamInvariant : Obligations.EveryStepKeepsTheStreamInvariant := by
  intro s t hi hs h
  rcases step_cases s with ⟨-, e⟩ | ⟨-, -, hphase, e⟩ | ⟨-, -, -, -, e⟩ | ⟨-, -, -, e⟩
  · cases e.symm.trans h
    exact doReset_streamInv s.beat
  · cases e.symm.trans h
    exact start_streamInv s.ports.cfg hphase
  · exact hs.beat.pixel hi.beat (e.symm.trans h)
  · cases e.symm.trans h
    exact hs.beat

end Sys2Proof.Machine
end

section
/-! PROOF. The pixel buffer of 20_memory.md rule R54: one pixel group at its front unpacks to one pixel, so a buffer of whole
groups unpacks to the pixel of each group, and the pixels pack back to the buffer (R195). -/

namespace Sys2Proof

variable {channels : Byte}

/-- The pixel of group `k` of a buffer, in the order r, g, b and, for 4 channels, a (R54). -/
def groupPixel (channels : Byte) (buf : List Byte) (k : Nat) : Pixel :=
  ⟨buf.getD (k * channels.toNat) 0, buf.getD (k * channels.toNat + 1) 0, buf.getD (k * channels.toNat + 2) 0,
    if channels = 4 then buf.getD (k * channels.toNat + 3) 0 else 255⟩

/-- The groups after the first are those of the bytes after it. -/
theorem groupPixel_append {group : List Byte} (hg : group.length = channels.toNat) (rest : List Byte) (k : Nat) :
    groupPixel channels (group ++ rest) (k + 1) = groupPixel channels rest k := by
  have hskip (j : Nat) : (group ++ rest).getD ((k + 1) * channels.toNat + j) 0 = rest.getD (k * channels.toNat + j) 0 := by
    rw [Nat.succ_mul, ← hg, List.getD_append_right _ _ _ _ (by omega)]
    congr 1
    omega
  have hfirst : (group ++ rest).getD ((k + 1) * channels.toNat) 0 = rest.getD (k * channels.toNat) 0 := hskip 0
  simp only [groupPixel, hskip, hfirst]

/-- A group has the bytes of one pixel: three for 3 channels, four for 4. -/
theorem group_cases (hch : channels = 3 ∨ channels = 4) {group : List Byte} (hg : group.length = channels.toNat) :
    (channels = 3 ∧ ∃ r g b, group = [r, g, b]) ∨ (channels = 4 ∧ ∃ r g b a, group = [r, g, b, a]) := by
  rcases hch with rfl | rfl
  · exact .inl ⟨rfl, List.length_eq_three.1 hg⟩
  · obtain ⟨r, tail, rfl⟩ := List.exists_cons_of_length_eq_add_one hg
    obtain ⟨g, b, a, rfl⟩ := List.length_eq_three.1 (Nat.succ.inj hg)
    exact .inr ⟨rfl, r, g, b, a, rfl⟩

/-- R54: one group at the front of a buffer is one pixel. -/
theorem unpackBuffer_append (hch : channels = 3 ∨ channels = 4) {group : List Byte} (hg : group.length = channels.toNat)
    (rest : List Byte) :
    unpackBuffer (group ++ rest) channels = groupPixel channels (group ++ rest) 0 :: unpackBuffer rest channels := by
  rcases group_cases hch hg with ⟨rfl, r, g, b, rfl⟩ | ⟨rfl, r, g, b, a, rfl⟩ <;> rfl

/-- R195: the pixel of the first group packs to that group. -/
theorem packBuffer_groupPixel (hch : channels = 3 ∨ channels = 4) {group : List Byte} (hg : group.length = channels.toNat)
    (rest : List Byte) : Machine.packBuffer channels [groupPixel channels (group ++ rest) 0] = group := by
  rcases group_cases hch hg with ⟨rfl, r, g, b, rfl⟩ | ⟨rfl, r, g, b, a, rfl⟩ <;> rfl

/-- A buffer of whole groups unpacks to the pixel of each group, and these pack back to it. -/
theorem unpackBuffer_groups (hch : channels = 3 ∨ channels = 4) (n : Nat) : ∀ {buf : List Byte},
    buf.length = n * channels.toNat →
    unpackBuffer buf channels = (List.range n).map (groupPixel channels buf) ∧
      Machine.packBuffer channels (unpackBuffer buf channels) = buf := by
  induction n with
  | zero =>
    intro buf hlen
    rw [Nat.zero_mul] at hlen
    obtain rfl := List.eq_nil_of_length_eq_zero hlen
    rcases hch with rfl | rfl <;> exact ⟨rfl, rfl⟩
  | succ n ih =>
    intro buf hlen
    rw [Nat.succ_mul] at hlen
    have hg : (buf.take channels.toNat).length = channels.toNat := List.length_take_of_le (by omega)
    obtain ⟨hpixels, hpack⟩ := ih (buf := buf.drop channels.toNat) (by rw [List.length_drop]; omega)
    rw [← List.take_append_drop channels.toNat buf, unpackBuffer_append hch hg]
    constructor
    · rw [hpixels, List.range_succ_eq_map, List.map_cons, List.map_map]
      congr 2
      funext k
      exact (groupPixel_append hg _ k).symm
    · calc Machine.packBuffer channels (groupPixel channels _ 0 :: unpackBuffer (buf.drop channels.toNat) channels)
        _ = Machine.packBuffer channels [groupPixel channels _ 0] ++
              Machine.packBuffer channels (unpackBuffer (buf.drop channels.toNat) channels) :=
            List.flatMap_append (xs := [_])
        _ = buf.take channels.toNat ++ buf.drop channels.toNat := by rw [packBuffer_groupPixel hch hg, hpack]

/-- Settles O10: each fact is read off the list of the group pixels. -/
theorem bufferUnpacksAndPacksBack : Obligations.BufferUnpacksAndPacksBack := by
  intro channels buf n hch hlen
  obtain ⟨hpixels, hpack⟩ := unpackBuffer_groups hch n hlen
  refine ⟨by simp [hpixels], hpack, ?_, fun k hk => ?_⟩
  · rintro rfl p hp
    rw [hpixels] at hp
    obtain ⟨k, -, rfl⟩ := List.mem_map.1 hp
    rfl
  · rw [hpixels, List.getElem?_map, List.getElem?_range hk]
    rfl

end Sys2Proof
end

section
/-! PROOF. What the rules of the spec speak of does not depend on the ports: two states with the same thirteen fields of R20 go
through the same commands to states with the same thirteen fields, whatever bytes wait and whatever the host drives (rules
R102, R118, R219). -/

namespace Sys2Proof.Machine

/-- The outcome of a step, seen without the ports. -/
def Result.architectural (o : Result) : Result := andThen o fun t => .next t.architectural

/-- The thirteen fields of R20 after `f` are a function of the thirteen fields before it. -/
def IgnoresPorts (f : State → Result) : Prop :=
  ∀ s : State, Result.architectural (f s.architectural) = Result.architectural (f s)

theorem Result.architectural_congr {f : State → Result} (hf : IgnoresPorts f) {o o' : Result}
    (h : architectural o = architectural o') : architectural (andThen o f) = architectural (andThen o' f) := by
  have hblank (x : Result) : architectural (andThen x f) = architectural (andThen (architectural x) f) := by
    cases x with
    | next t => exact (hf t).symm
    | fault r => rfl
    | refused r => rfl
  rw [hblank o, hblank o', h]

theorem IgnoresPorts.andThen {f g : State → Result} (hf : IgnoresPorts f) (hg : IgnoresPorts g) :
    IgnoresPorts fun s => andThen (f s) g :=
  fun s => Result.architectural_congr hg (hf s)

/-- A branch on the thirteen fields. -/
theorem IgnoresPorts.ite {c : State → Prop} [∀ s, Decidable (c s)] {f g : State → Result}
    (hc : ∀ s, c s.architectural ↔ c s) (hf : IgnoresPorts f) (hg : IgnoresPorts g) :
    IgnoresPorts fun s => if c s then f s else g s := by
  intro s
  by_cases h : c s
  · simp only [if_pos h, if_pos ((hc s).2 h), hf s]
  · simp only [if_neg h, if_neg (mt (hc s).1 h), hg s]

theorem exec_ignoresPorts (i : Instr) : IgnoresPorts (exec i) := by
  intro s
  cases i <;> rfl

theorem flush_ignoresPorts : IgnoresPorts flush :=
  .ite (fun _ => Iff.rfl) (fun _ => rfl) fun s => exec_ignoresPorts (.run s.run.toNat) s

theorem repeatStep_ignoresPorts : IgnoresPorts repeatStep :=
  .ite (fun _ => Iff.rfl) (fun s => exec_ignoresPorts (.run s.accumulate.run.toNat) s.accumulate) fun _ => rfl

theorem encodeStep_ignoresPorts (px : Pixel) : IgnoresPorts (encodeStep px) :=
  flush_ignoresPorts.andThen fun s => exec_ignoresPorts (chooseOp px s) s

theorem opSelect_ignoresPorts (p : Pixel) : IgnoresPorts (opSelect p) :=
  .ite (fun _ => Iff.rfl) repeatStep_ignoresPorts fun s => encodeStep_ignoresPorts (normalise s.cfgChannels p) s

theorem finishPixel_ignoresPorts : IgnoresPorts fun s => .next s.finishPixel := by
  simp only [State.finishPixel, apply_ite Host.Outcome.next]
  exact .ite (fun _ => Iff.rfl) (fun _ => rfl) fun _ => rfl

theorem pixel_ignoresPorts (p : Pixel) : IgnoresPorts (pixel p) :=
  .ite (fun _ => Iff.rfl) ((opSelect_ignoresPorts p).andThen finishPixel_ignoresPorts) fun _ => rfl

theorem pixels_ignoresPorts (ps : List Pixel) : IgnoresPorts (pixels ps) := by
  induction ps with
  | nil => exact fun s => rfl
  | cons p ps ih => exact (pixel_ignoresPorts p).andThen ih

/-- PIXELs from two states that differ in the ports only end in two such states. -/
theorem pixels_architectural_congr (ps : List Pixel) {s s' t : State} (hs : s'.architectural = s.architectural)
    (h : pixels ps s = .next t) : ∃ t', pixels ps s' = .next t' ∧ t'.architectural = t.architectural := by
  have hsame : Result.architectural (pixels ps s') = .next t.architectural := by
    rw [← pixels_ignoresPorts ps s', hs, pixels_ignoresPorts ps s, h]
    rfl
  cases h' : pixels ps s' with
  | next t' =>
    rw [h'] at hsame
    exact ⟨t', rfl, Host.Outcome.next.inj hsame⟩
  | fault r => exact nomatch r
  | refused r =>
    rw [h'] at hsame
    exact nomatch hsame

/-- A START whose operands are valid writes all thirteen fields, so what came before leaves no trace in them (R105, R107, R108). -/
theorem start_valid_architectural {a : StartArgs} {s s' : State} (hs : s.phase ≠ .running) (hs' : s'.phase ≠ .running)
    (ha : validate a = .none) : (start a s').architectural = (start a s).architectural := by
  rcases start_cases a s hs with ⟨-, e⟩ | ⟨hbad, -⟩
  · rcases start_cases a s' hs' with ⟨-, e'⟩ | ⟨hbad, -⟩
    · rw [e, e']
      rfl
    · exact absurd ha hbad
  · exact absurd ha hbad

end Sys2Proof.Machine
end

section
/-! PROOF. The encode of one image (rules R86, R117). The ops of a PIXEL are well formed, and with the pending run they account
for one pixel. So the pixels from START to the end of the image account for `total` pixels, and the last one
leaves DONE and the terminator. -/

namespace Sys2Proof.Machine

/-! ### The ops of one PIXEL -/

variable {s t : State} {p : Pixel}

/-- R82: the quantities of a chosen op are in the ranges that made the selector choose it. -/
theorem chooseOp_wellFormed (px : Pixel) (s : State) : (chooseOp px s).wellFormed = true := by
  rcases chooseOp_cases px s with ⟨-, e⟩ | ⟨-, -, e⟩ | ⟨-, -, hdiff, e⟩ | ⟨-, -, -, hluma, e⟩ | ⟨-, -, -, -, e⟩ <;> rw [e]
  · rfl
  · rfl
  · exact hdiff
  · exact hluma
  · rfl

/-- A chosen op stands for one pixel (R188). -/
theorem pixelCount_chooseOp (px : Pixel) (s : State) : pixelCount (chooseOp px s) = 1 := by
  rcases chooseOp_cases px s with ⟨-, e⟩ | ⟨-, -, e⟩ | ⟨-, -, -, e⟩ | ⟨-, -, -, -, e⟩ | ⟨-, -, -, -, e⟩ <;> rw [e] <;> rfl

/-- R36 item 1: a flush is one RUN of 1 to 61, or nothing. -/
theorem flushOps_wellFormed (hrun : s.run.toNat ≤ 61) : ∀ i ∈ s.flushOps, i.wellFormed = true := by
  unfold State.flushOps
  split
  · exact nofun
  · next hne =>
    intro i hi
    rw [List.mem_singleton.1 hi, wellFormed_run_iff]
    have : s.run.toNat ≠ 0 := fun e => hne (BitVec.eq_of_toNat_eq e)
    omega

/-- A flush stands for the pixels of the pending run (R142). -/
theorem flushOps_pixelCount (s : State) : (s.flushOps.map pixelCount).sum = s.run.toNat := by
  unfold State.flushOps
  split
  · next h => rw [h]; rfl
  · exact Nat.add_zero _

/-- The ops an op-selector step emits: the RUN that is due, nothing while the run goes on, or a flush and the pixel's own
op (R140 to R149). -/
theorem opSelect_ops (h : opSelect p s = .next t) :
    ∃ ops : List Instr, t.out = s.out ++ ops.flatMap encode ∧
      ((ops = [.run (s.run + 1).toNat] ∧ t.run = 0) ∨ (ops = [] ∧ t.run = s.run + 1) ∨
        (ops = s.flushOps ++ [chooseOp (normalise s.cfgChannels p) s] ∧ t.run = 0)) := by
  rcases opSelect_cases p s with ⟨-, -, e⟩ | ⟨-, -, -, e⟩ | ⟨-, -, e⟩ | ⟨-, -, e⟩ <;> cases e.symm.trans h
  · exact ⟨_, by simp, .inl ⟨rfl, rfl⟩⟩
  · exact ⟨_, by simp, .inr (.inl ⟨rfl, rfl⟩)⟩
  · exact ⟨_, by simp, .inr (.inr ⟨rfl, s.flushed_run⟩)⟩
  · exact ⟨_, by simp, .inr (.inr ⟨rfl, s.flushed_run⟩)⟩

/-- The ops of an op-selector step are well formed, and with the run it leaves they account for one pixel more than the run it
found. -/
theorem opSelect_accounts (hrun : s.run.toNat ≤ 61) (h : opSelect p s = .next t) :
    ∃ ops : List Instr, t.out = s.out ++ ops.flatMap encode ∧ (∀ i ∈ ops, i.wellFormed = true) ∧
      (ops.map pixelCount).sum + t.run.toNat = s.run.toNat + 1 := by
  have hsucc := run_succ_toNat hrun
  obtain ⟨ops, hout, ⟨rfl, hleft⟩ | ⟨rfl, hleft⟩ | ⟨rfl, hleft⟩⟩ := opSelect_ops h <;> rw [hleft] <;>
    refine ⟨_, hout, ?_, ?_⟩
  · intro i hi
    rw [List.mem_singleton.1 hi, wellFormed_run_iff]
    omega
  · exact hsucc
  · exact nofun
  · exact (Nat.zero_add _).trans hsucc
  · intro i hi
    rcases List.mem_append.1 hi with hi | hi
    · exact flushOps_wellFormed hrun i hi
    · rw [List.mem_singleton.1 hi]
      exact chooseOp_wellFormed _ s
  · simp [flushOps_pixelCount, pixelCount_chooseOp]

/-! ### The pixels of an image -/

/-- `t` is the end of the image that `s` is encoding, `ops` between them: DONE, the ops for the pixels still owed, and the
terminator (R86, R112, R113). -/
structure State.Completes (s t : State) (ops : List Instr) : Prop where
  phase : t.phase = .done
  inv : t.Inv
  latched : t.latched = s.latched
  wellFormed : ∀ i ∈ ops, i.wellFormed = true
  count : (ops.map pixelCount).sum + s.pos.toNat = s.run.toNat + s.total
  out : t.out = s.out ++ ops.flatMap encode ++ Config.terminator

/-- From RUNNING, exactly the remaining pixels complete the image. -/
theorem pixels_complete (ps : List Pixel) : ∀ {s : State}, s.Inv → s.phase = .running → s.pos.toNat + ps.length = s.total →
    ∃ t ops, pixels ps s = .next t ∧ s.Completes t ops := by
  induction ps with
  | nil =>
    intro s hi hphase hlen
    exact absurd hlen (Nat.ne_of_lt (hi.running_before_end hphase))
  | cons p ps ih =>
    intro s hi hphase hlen
    obtain ⟨u, hu, hpixel⟩ := pixel_running p s hphase
    obtain ⟨hphase', -, hlat, hpos⟩ := opSelect_frame hu
    obtain ⟨ops, hout, hwf, hcount⟩ := opSelect_accounts hi.run_le hu
    have hinv := hi.pixel hpixel
    have hsucc := hi.pos_succ hphase
    rw [List.length_cons] at hlen
    rw [pixels, hpixel, andThen_next]
    rcases finishPixel_cases u with ⟨hlast, e⟩ | ⟨hmore, e⟩ <;> rw [e] at hinv ⊢
    · rw [hpos, State.total_congr hlat, hsucc] at hlast
      obtain rfl : ps = [] := List.eq_nil_of_length_eq_zero (by omega)
      have hrun := opSelect_run_of_last hlast hu
      rw [hrun] at hcount
      exact ⟨_, ops, rfl,
        { phase := rfl
          inv := hinv
          latched := hlat
          wellFormed := hwf
          count := by
            have : (0 : BitVec 6).toNat = 0 := rfl
            omega
          out := congrArg (· ++ Config.terminator) hout }⟩
    · have hadvanced : u.advancePos.pos.toNat = s.pos.toNat + 1 := by rw [State.advancePos_pos, hpos, hsucc]
      have htotal : u.advancePos.total = s.total := State.total_congr hlat
      obtain ⟨t, ops', ht, hdone⟩ := ih hinv (hphase'.trans hphase) (by omega)
      have hcount' := hdone.count
      rw [hadvanced, htotal, State.advancePos_run] at hcount'
      exact ⟨t, ops ++ ops', ht,
        { phase := hdone.phase
          inv := hdone.inv
          latched := hdone.latched.trans hlat
          wellFormed := fun i hi => (List.mem_append.1 hi).elim (hwf i) (hdone.wellFormed i)
          count := by
            rw [List.map_append, List.sum_append]
            omega
          out := by
            rw [hdone.out, State.advancePos_out, hout, List.flatMap_append, List.append_assoc s.out] }⟩

/-! ### The encode -/

/-- R106: the operands the host gives START for a valid image are accepted. -/
theorem validate_of_validImage {w h : Word} {ch cs : Byte} {buf : List Byte} (hv : ValidImage w h ch cs buf) :
    validate ⟨w, h, ch, cs, BitVec.ofNat 64 buf.length⟩ = .none := by
  obtain ⟨hw, hh, hceiling, hch, hcs, hlen⟩ := hv
  refine (validate_none_iff _).2 ⟨⟨hw, hh, hceiling⟩, ⟨hch, hcs⟩, ?_⟩
  have hfour : ch.toNat ≤ 4 := by rcases hch with rfl | rfl <;> decide
  have hsize : buf.length ≤ 400000000 * 4 := hlen ▸ Nat.mul_le_mul hceiling.le hfour
  exact (BitVec.toNat_ofNat _ _).trans ((Nat.mod_eq_of_lt (by omega)).trans hlen)

/-- R107 to R109: what START with valid operands leaves for the pixels. -/
theorem start_valid_begins {a : StartArgs} (hphase : s.phase ≠ .running) (ha : validate a = .none) :
    (start a s).phase = .running ∧ (start a s).pos = 0 ∧ (start a s).out = header a := by
  rcases start_cases a s hphase with ⟨-, e⟩ | ⟨hbad, -⟩
  · rw [e]
    exact ⟨rfl, rfl, rfl⟩
  · exact absurd ha hbad

/-- `t` is the end of the encode of an image of `total` pixels with description `a`, `ops` between header and terminator (R86,
R113, R117). -/
structure State.Encoded (t : State) (a : StartArgs) (total : Nat) (ops : List Instr) : Prop where
  phase : t.phase = .done
  errCode : t.errCode = .none
  run : t.run = 0
  pos : t.pos.toNat = total
  out : t.out = header a ++ ops.flatMap encode ++ Config.terminator

/-- The encode of a valid image from one state outside RUNNING. -/
theorem encodeRun_encoded {w h : Word} {ch cs : Byte} {buf : List Byte} (hv : ValidImage w h ch cs buf)
    (hphase : s.phase ≠ .running) :
    ∃ t ops, encodeRun w h ch cs buf s = .next t ∧ (∀ i ∈ ops, i.wellFormed = true) ∧
      (ops.map pixelCount).sum = w.toNat * h.toNat ∧
      t.Encoded ⟨w, h, ch, cs, BitVec.ofNat 64 buf.length⟩ (w.toNat * h.toNat) ops := by
  have ha := validate_of_validImage hv
  obtain ⟨-, -, -, hch, -, hlen⟩ := hv
  obtain ⟨hpixels, -⟩ := bufferUnpacksAndPacksBack ch buf _ hch hlen
  obtain ⟨hlat, hrun⟩ := start_valid_latched_run hphase ha
  obtain ⟨hrunning, hpos, hout⟩ := start_valid_begins hphase ha
  have htotal := congrArg (fun a : StartArgs => a.width.toNat * a.height.toNat) hlat
  have hpos : (start ⟨w, h, ch, cs, BitVec.ofNat 64 buf.length⟩ s).pos.toNat = 0 := congrArg BitVec.toNat hpos
  obtain ⟨t, ops, ht, hdone⟩ := pixels_complete (unpackBuffer buf ch) (start_valid_inv hphase ha) hrunning
    (by rw [hpos, hpixels, Nat.zero_add]; exact htotal.symm)
  have hcount := hdone.count
  rw [hpos, hrun] at hcount
  obtain ⟨hend, hzero⟩ := hdone.inv.done_complete hdone.phase
  refine ⟨t, ops, ht, hdone.wellFormed, hcount.trans ((Nat.zero_add _).trans htotal), ?_⟩
  exact
    { phase := hdone.phase
      errCode := by
        by_contra hc
        exact nomatch hdone.phase.symm.trans (hdone.inv.code_iff_error.1 hc)
      run := hzero
      pos := hend.trans ((State.total_congr hdone.latched).trans htotal)
      out := by rw [hdone.out, hout] }

/-- Settles O42: START leaves the same thirteen fields in every state, and the pixels ignore the ports, so the ops from the reset
state are the ops from every state. -/
theorem encodeCompletesWhateverCameBefore : Obligations.EncodeCompletesWhateverCameBefore := by
  intro w h ch cs buf hv
  have hreset : State.reset.phase ≠ .running := by decide
  obtain ⟨t, ops, ht, hwf, hcount, hencoded⟩ := encodeRun_encoded hv hreset
  refine ⟨ops, hwf, hcount, fun s hphase => ?_⟩
  obtain ⟨t', ht', hsame⟩ := pixels_architectural_congr _
    (start_valid_architectural hreset hphase (validate_of_validImage hv)) ht
  exact ⟨t', ht', (congrArg State.phase hsame).trans hencoded.phase, (congrArg State.errCode hsame).trans hencoded.errCode,
    (congrArg State.run hsame).trans hencoded.run,
    (congrArg (fun u : State => u.pos.toNat) hsame).trans hencoded.pos, (congrArg State.out hsame).trans hencoded.out⟩

end Sys2Proof.Machine
end

section
/-! PROOF. The arbitration of simultaneous commands (rules R104, R212) and the output port (rules R55, R59): a command appends to
`out` and to the bytes that wait alike. -/

namespace Sys2Proof.Machine

/-! ### Arbitration -/

/-- The step is the command the arbiter takes, run after the output handshake. -/
theorem step_of_arbitrate {s : State} {c : Command} (h : arbitrate s = some c) : step s = runCommand c s.beat := by
  rw [step, portStep, h]

/-- Settles O25: the arbiter's order, and START needs a phase that excludes `pix_ready`. -/
theorem oneCommandIsTakenPerStep : Obligations.OneCommandIsTakenPerStep := by
  intro s
  refine ⟨fun hrst => step_of_arbitrate ?_, fun hrst hstart hphase => step_of_arbitrate ?_,
    fun hrst hno hpix hready => step_of_arbitrate ?_, ?_⟩
  · rw [arbitrate, if_pos hrst]
  · simp [arbitrate, hrst, hstart, State.startReady, State.busy, hphase]
  · have hnot : (s.ports.start && s.startReady) = false := by
      rcases hno with hno | hno
      · rw [hno, Bool.false_and]
      · simp [State.startReady, State.busy, hno]
    simp [arbitrate, hrst, hnot, hpix, hready]
  · unfold State.startReady State.pixReady
    cases s.busy <;> simp

/-! ### The output port -/

/-- `t` has emitted `bytes` beyond `s`: they joined the history and, in the same order, the waiting bytes (R12, R28, R55). -/
def State.Emits (s t : State) (bytes : List Byte) : Prop :=
  t.out = s.out ++ bytes ∧ t.outPending = s.outPending ++ bytes

variable {s t u : State} {p : Pixel} {bytes bytes' : List Byte}

theorem State.Emits.trans (h : s.Emits t bytes) (h' : t.Emits u bytes') : s.Emits u (bytes ++ bytes') := by
  obtain ⟨hout, hwait⟩ := h
  obtain ⟨hout', hwait'⟩ := h'
  exact ⟨by rw [hout', hout, List.append_assoc], by rw [hwait', hwait, List.append_assoc]⟩

theorem State.emits_nothing (hout : t.out = s.out) (hwait : t.outPending = s.outPending) : s.Emits t [] :=
  ⟨hout.trans (List.append_nil _).symm, hwait.trans (List.append_nil _).symm⟩

theorem State.flushed_emits (s : State) : s.Emits s.flushed (s.flushOps.flatMap encode) := by
  rw [State.flushed_eq]
  exact ⟨rfl, rfl⟩

theorem opSelect_emits (h : opSelect p s = .next t) : ∃ bytes, s.Emits t bytes := by
  rcases opSelect_cases p s with ⟨-, -, e⟩ | ⟨-, -, -, e⟩ | ⟨-, -, e⟩ | ⟨-, -, e⟩ <;> cases e.symm.trans h
  · exact ⟨_, rfl, rfl⟩
  · exact ⟨[], State.emits_nothing rfl rfl⟩
  · exact ⟨_, s.flushed_emits.trans ⟨rfl, rfl⟩⟩
  · exact ⟨_, s.flushed_emits.trans ⟨rfl, rfl⟩⟩

theorem State.finishPixel_emits (s : State) : ∃ bytes, s.Emits s.finishPixel bytes := by
  rcases finishPixel_cases s with ⟨-, e⟩ | ⟨-, e⟩ <;> rw [e]
  · exact ⟨Config.terminator, rfl, rfl⟩
  · exact ⟨[], emits_nothing rfl rfl⟩

theorem pixel_emits (h : pixel p s = .next t) : ∃ bytes, s.Emits t bytes := by
  rcases pixel_cases h with ⟨-, rfl⟩ | ⟨-, u, hu, rfl⟩
  · exact ⟨[], State.emits_nothing rfl rfl⟩
  · obtain ⟨bytes, hbytes⟩ := opSelect_emits hu
    obtain ⟨bytes', hbytes'⟩ := u.finishPixel_emits
    exact ⟨_, hbytes.trans hbytes'⟩

/-- START outside RUNNING begins a new history; its bytes join the ones that wait (R105, R110). -/
theorem start_emits (a : StartArgs) (hphase : s.phase ≠ .running) :
    (start a s).outPending = s.outPending ++ (start a s).out := by
  rcases start_cases a s hphase with ⟨-, e⟩ | ⟨-, e⟩ <;> rw [e]
  · rfl
  · exact (List.append_nil _).symm

/-- R55: the host takes the oldest waiting byte or none. -/
theorem State.takenByte_append_left (s : State) : s.takenByte.toList ++ s.left = s.outPending := by
  unfold State.takenByte State.left State.outByte
  cases s.ports.outReady
  · rfl
  · cases s.outPending <;> rfl

/-- Settles O35: the beat leaves `left`, and then each command emits at the end; RESET alone would drop bytes. -/
theorem outputPortIsLosslessAndOrdered : Obligations.OutputPortIsLosslessAndOrdered := by
  intro s t h hrst
  refine ⟨s.takenByte_append_left.symm, ?_⟩
  rcases step_cases s with ⟨hrst', -⟩ | ⟨-, hstart, hphase, e⟩ | ⟨-, -, -, -, e⟩ | ⟨-, -, -, e⟩
  · exact absurd (hrst'.symm.trans hrst) (by decide)
  · cases e.symm.trans h
    exact ⟨_, start_emits (s := s.beat) s.ports.cfg hphase, .inr ⟨hstart, hphase, rfl⟩⟩
  · obtain ⟨bytes, hout, hwait⟩ := pixel_emits (e.symm.trans h)
    exact ⟨bytes, hwait, .inl hout⟩
  · cases e.symm.trans h
    exact ⟨[], (List.append_nil _).symm, .inl (List.append_nil _).symm⟩

end Sys2Proof.Machine
end

section
/-! PROOF. Placing an op (log entry 9). A step that takes an offered pixel is the op-selector step and the end of the PIXEL; the
pixel that `place` offers makes the selector choose exactly the placed op, by the rows of rule R150; so the op runs next. -/

namespace Sys2Proof

/-! ### The colours that are offered -/

/-- `11 · 35 = 1 (mod 64)`: the colour of a slot hashes to it (R130). -/
theorem hash6_colourOfSlot : ∀ k : Slot, hash6 (Machine.colourOfSlot k) = k := by decide

/-- Its alpha is below 64, so it is not the opaque black that starts an image. -/
theorem colourOfSlot_ne_pixelInit : ∀ k : Slot, Machine.colourOfSlot k ≠ Config.pixelInit := by decide

theorem otherColour_ne (px : Pixel) : Machine.otherColour px ≠ px := by
  unfold Machine.otherColour
  split
  · next h =>
    rw [h]
    decide
  · next h => exact Ne.symm h

/-- A delta that keeps a mid-grey channel in 0..255 is read back exactly (R134). -/
theorem delta_midGrey {d : Int} (hlow : -128 ≤ d) (hhigh : d ≤ 127) : delta (128 + BitVec.ofInt 8 d) 128 = d := by
  have hsum := ofInt_toNat_of_range 8 (128 + d) (by omega) (by omega)
  rw [delta, channel_add]
  show ((BitVec.ofInt 8 (128 + d)).toNat : Int) - 128 = d
  omega

/-- The deltas of a pixel placed around mid grey are the ones it was placed with. -/
theorem deltas_midGrey {dr dg db : Int} (hr : -128 ≤ dr ∧ dr ≤ 127) (hg : -128 ≤ dg ∧ dg ≤ 127)
    (hb : -128 ≤ db ∧ db ≤ 127) :
    deltaRed (Machine.midGrey.addDeltas dr dg db) Machine.midGrey = dr ∧
      deltaGreen (Machine.midGrey.addDeltas dr dg db) Machine.midGrey = dg ∧
      deltaBlue (Machine.midGrey.addDeltas dr dg db) Machine.midGrey = db :=
  ⟨delta_midGrey hr.1 hr.2, delta_midGrey hg.1 hg.2, delta_midGrey hb.1 hb.2⟩

theorem delta_self (c : Byte) : delta c c = 0 := sub_self _

/-- Half the range away, no delta is in the range of LUMA or DIFF. -/
theorem delta_add_128 (c : Byte) : delta c (c + 128) = 128 ∨ delta c (c + 128) = -128 := by
  unfold delta
  rw [BitVec.toNat_add]
  have := c.isLt
  have : (128 : Byte).toNat = 128 := rfl
  omega

namespace Machine

variable {s : State} {px : Pixel}

/-! ### The op chosen for a pixel, row by row (R150) -/

theorem chooseOp_of_hit (h : s.cacheAt (hash6 px) = px) : chooseOp px s = .index (hash6 px) := by
  simp [chooseOp, State.hit, h]

theorem chooseOp_of_alpha (hmiss : s.cacheAt (hash6 px) ≠ px) (ha : px.a ≠ s.prev.a) :
    chooseOp px s = .rgba px.r px.g px.b px.a := by
  simp [chooseOp, State.hit, State.alphaEq, hmiss, ha]

theorem chooseOp_of_diffOk (hmiss : s.cacheAt (hash6 px) ≠ px) (ha : px.a = s.prev.a) (hdiff : s.diffOk px = true) :
    chooseOp px s = .diff (deltaRed px s.prev) (deltaGreen px s.prev) (deltaBlue px s.prev) := by
  simp [chooseOp, State.hit, State.alphaEq, hmiss, ha, hdiff]

theorem chooseOp_of_lumaOk (hmiss : s.cacheAt (hash6 px) ≠ px) (ha : px.a = s.prev.a) (hdiff : s.diffOk px = false)
    (hluma : s.lumaOk px = true) :
    chooseOp px s = .luma (deltaGreen px s.prev) (relRed px s.prev) (relBlue px s.prev) := by
  simp [chooseOp, State.hit, State.alphaEq, hmiss, ha, hdiff, hluma]

theorem chooseOp_of_neither (hmiss : s.cacheAt (hash6 px) ≠ px) (ha : px.a = s.prev.a) (hdiff : s.diffOk px = false)
    (hluma : s.lumaOk px = false) : chooseOp px s = .rgb px.r px.g px.b := by
  simp [chooseOp, State.hit, State.alphaEq, hmiss, ha, hdiff, hluma]

/-- Equal pixels have the deltas 0, which fit DIFF. -/
theorem ne_prev_of_diffOk (hdiff : s.diffOk px = false) : px ≠ s.prev := by
  rintro rfl
  simp [State.diffOk, deltaRed, deltaGreen, deltaBlue, delta_self, inDiffRange, inRange] at hdiff

/-- Half the range away in green, a pixel is in the range of neither delta op. -/
theorem not_ok_of_green (h : deltaGreen px s.prev = 128 ∨ deltaGreen px s.prev = -128) :
    s.diffOk px = false ∧ s.lumaOk px = false := by
  have hdiff : inDiffRange (deltaGreen px s.prev) = false := by rcases h with h | h <;> rw [h] <;> rfl
  have hluma : inLumaGreenRange (deltaGreen px s.prev) = false := by rcases h with h | h <;> rw [h] <;> rfl
  simp [State.diffOk, State.lumaOk, hdiff, hluma]

/-! ### One step with an offered pixel -/

/-- The port of an offered pixel carries it. -/
theorem step_of_offer {rest : List Ports} (hphase : s.phase = .running) (hwait : s.outPending = [])
    (hin : s.inputs = Ports.offer px :: rest) :
    step s = andThen (opSelect px s.beat) fun t => .next t.finishPixel := by
  have hports : s.ports = Ports.offer px := by rw [State.ports, hin]; rfl
  have htaken : arbitrate s = some (.pixel px) := by
    simp [arbitrate, hports, Ports.offer, Ports.quiet, State.pixReady, State.busy, hphase, hwait]
  rw [step_of_arbitrate htaken]
  exact if_pos hphase

/-- A pixel that is no repeat, with no run pending, runs its chosen op alone (R144 to R149). -/
theorem opSelect_of_break (hch : s.cfgChannels = 4) (hrun : s.run = 0) (hne : px ≠ s.prev) :
    opSelect px s = exec (chooseOp px s) s := by
  have hnorm : normalise s.cfgChannels px = px := by rw [hch]; rfl
  rw [opSelect, hnorm, if_neg (by simpa [State.eqPrev] using hne), encodeStep, flush, if_pos hrun, andThen_next]

/-- A pixel offered with `offeringMiss` runs the op that the selector chooses for it on a miss from `old`. -/
theorem step_offeringMiss {old : Pixel} {i : Instr} (s : State)
    (hchosen : ∀ t : State, t.prev = old → t.cacheAt (hash6 px) ≠ px → px ≠ t.prev ∧ chooseOp px t = i) :
    step (s.offeringMiss old px) = andThen (exec i (s.offeringMiss old px).beat) fun t => .next t.finishPixel := by
  have hmiss : (s.offeringMiss old px).beat.cacheAt (hash6 px) ≠ px := by
    rw [State.beat_cacheAt, State.offeringMiss, State.cacheAt_cacheWrite, if_pos rfl]
    exact otherColour_ne px
  obtain ⟨hne, hop⟩ := hchosen _ rfl hmiss
  rw [step_of_offer (px := px) rfl rfl rfl, opSelect_of_break rfl rfl hne, hop]

/-! ### The six ops -/

/-- The step after `i` is placed is `i` alone, and the end of the PIXEL (log entry 9). -/
def RunsNextFrom (i : Instr) (s : State) : Prop :=
  step (s.place i) = andThen (exec i (s.place i).beat) fun t => .next t.finishPixel

theorem index_runsNext (s : State) (slot : Slot) : RunsNextFrom (.index slot) s := by
  have hhit : (s.place (.index slot)).beat.cacheAt (hash6 (colourOfSlot slot)) = colourOfSlot slot := by
    rw [hash6_colourOfSlot, State.beat_cacheAt, State.place, State.cacheAt_cacheWrite, if_pos rfl]
  rw [RunsNextFrom, step_of_offer (px := colourOfSlot slot) rfl rfl rfl,
    opSelect_of_break rfl rfl (colourOfSlot_ne_pixelInit slot), chooseOp_of_hit hhit, hash6_colourOfSlot]

/-- The deltas of the placed pixel are the operands, which are in range and not all 0. -/
theorem diff_runsNext (s : State) {dr dg db : Int} (h : (Instr.diff dr dg db).emittable = true) :
    RunsNextFrom (.diff dr dg db) s := by
  obtain ⟨hwf, hsome⟩ := Bool.and_eq_true _ _ ▸ h
  obtain ⟨hr, hg, hb⟩ := (wellFormed_diff_iff dr dg db).1 hwf
  obtain ⟨hred, hgreen, hblue⟩ := deltas_midGrey (dr := dr) (dg := dg) (db := db) (by omega) (by omega) (by omega)
  refine step_offeringMiss s fun t hprev hmiss => ⟨fun e => ?_, ?_⟩
  · rw [e, hprev] at hred hgreen hblue
    have hred : dr = 0 := hred.symm.trans (delta_self _)
    have hgreen : dg = 0 := hgreen.symm.trans (delta_self _)
    have hblue : db = 0 := hblue.symm.trans (delta_self _)
    simp [hred, hgreen, hblue] at hsome
  · rw [chooseOp_of_diffOk hmiss (by rw [hprev]; rfl) ?_, hprev, hred, hgreen, hblue]
    rw [State.diffOk, hprev, hred, hgreen, hblue]
    exact hwf

/-- The deltas of the placed pixel are those of the operands, in the range of LUMA and not of DIFF. -/
theorem luma_runsNext (s : State) {dg drg dbg : Int} (h : (Instr.luma dg drg dbg).emittable = true) :
    RunsNextFrom (.luma dg drg dbg) s := by
  obtain ⟨hwf, hlarge⟩ := Bool.and_eq_true _ _ ▸ h
  obtain ⟨hg, hr, hb⟩ := (wellFormed_luma_iff dg drg dbg).1 hwf
  obtain ⟨hred, hgreen, hblue⟩ :=
    deltas_midGrey (dr := drg + dg) (dg := dg) (db := dbg + dg) (by omega) (by omega) (by omega)
  have hrelRed : relRed (midGrey.addDeltas (drg + dg) dg (dbg + dg)) midGrey = drg := by
    rw [relRed, hred, hgreen, add_sub_cancel_right]
  have hrelBlue : relBlue (midGrey.addDeltas (drg + dg) dg (dbg + dg)) midGrey = dbg := by
    rw [relBlue, hblue, hgreen, add_sub_cancel_right]
  refine step_offeringMiss s fun t hprev hmiss => ?_
  have hdiff : t.diffOk (midGrey.addDeltas (drg + dg) dg (dbg + dg)) = false := by
    rw [State.diffOk, hprev, hred, hgreen, hblue]
    exact Bool.eq_false_of_not_eq_true' hlarge
  have hluma : t.lumaOk (midGrey.addDeltas (drg + dg) dg (dbg + dg)) = true := by
    rw [State.lumaOk, hprev, hrelRed, hgreen, hrelBlue]
    exact hwf
  refine ⟨ne_prev_of_diffOk hdiff, ?_⟩
  rw [chooseOp_of_lumaOk hmiss (by rw [hprev]; rfl) hdiff hluma, hprev, hgreen, hrelRed, hrelBlue]

/-- The placed pixel is 128 away in green, which no delta op reaches. -/
theorem rgb_runsNext (s : State) (r g b : Byte) : RunsNextFrom (.rgb r g b) s := by
  refine step_offeringMiss s fun t hprev hmiss => ?_
  have hgreen : deltaGreen ⟨r, g, b, 255⟩ t.prev = 128 ∨ deltaGreen ⟨r, g, b, 255⟩ t.prev = -128 := by
    rw [hprev]
    exact delta_add_128 g
  obtain ⟨hdiff, hluma⟩ := not_ok_of_green hgreen
  exact ⟨ne_prev_of_diffOk hdiff, chooseOp_of_neither hmiss (by rw [hprev]) hdiff hluma⟩

/-- The placed pixel differs from `prev` in alpha. -/
theorem rgba_runsNext (s : State) (r g b a : Byte) : RunsNextFrom (.rgba r g b a) s := by
  refine step_offeringMiss s fun t hprev hmiss => ?_
  have halpha : a ≠ t.prev.a := by
    rw [hprev]
    simp
  exact ⟨fun e => halpha (congrArg Pixel.a e), chooseOp_of_alpha hmiss halpha⟩

/-- The placed pixel repeats `prev` at the last position, with the other `n - 1` repeats pending (R141). -/
theorem run_runsNext (s : State) {n : Nat} (h : (Instr.run n).emittable = true) : RunsNextFrom (.run n) s := by
  obtain ⟨hwf, -⟩ := Bool.and_eq_true _ _ ▸ h
  obtain ⟨hlow, hhigh⟩ := (wellFormed_run_iff n).1 hwf
  have hpending : ((s.place (.run n)).beat.run + 1).toNat = n := by
    have hfield : (BitVec.ofNat 6 (n - 1)).toNat = n - 1 := Nat.mod_eq_of_lt (by omega)
    exact (run_succ_toNat (by omega : (BitVec.ofNat 6 (n - 1)).toNat ≤ 61)).trans (by omega)
  rw [RunsNextFrom, step_of_offer (px := s.prev) rfl rfl rfl]
  rcases opSelect_cases s.prev (s.place (.run n)).beat with ⟨-, -, e⟩ | ⟨-, -, hlast, -⟩ | ⟨hne, -⟩ | ⟨hne, -⟩
  · rw [e, hpending]
    rfl
  · exact absurd rfl hlast
  · exact absurd rfl hne
  · exact absurd rfl hne

/-- Settles O23, op by op. -/
theorem everyEmittableWordRunsNext : Obligations.EveryEmittableWordRunsNext := by
  intro s nbits w i hword hemit
  rw [State.withFetchWord, State.placeWord, hword]
  cases i with
  | index slot => exact index_runsNext s slot
  | diff dr dg db => exact diff_runsNext s hemit
  | luma dg drg dbg => exact luma_runsNext s hemit
  | run n => exact run_runsNext s hemit
  | rgb r g b => exact rgb_runsNext s r g b
  | rgba r g b a => exact rgba_runsNext s r g b a

end Machine

end Sys2Proof
end

section
/-! PROOF. The bytes of the six ops (30_encoding.md rules R70 to R87): what the decoder reads from each of them, the six kinds of
tag byte, and the packing formulas of the format rules. -/

namespace Sys2Proof

/-! ### What is read from the bytes of each kind (R70) -/

theorem decode_indexByte (x : BitVec 6) (rest : List Byte) :
    decode ((0b00#2 ++ x) :: rest) = .ok (.index (Fin.ofNat 64 x.toNat), rest) := by
  obtain ⟨hfamily, hfield⟩ := tag_fields 0b00#2 x
  obtain ⟨hrgb, hrgba⟩ := tag_not_literal 0b00#2 x (.inl (by decide))
  simp [decode, hrgb, hrgba, hfamily, hfield]

theorem decode_diffByte (x y z : BitVec 2) (rest : List Byte) :
    decode ((0b01#2 ++ x ++ y ++ z) :: rest) = .ok (.diff (x.toNat - 2) (y.toNat - 2) (z.toNat - 2), rest) := by
  obtain ⟨hfamily, hx, hy, hz, hrgb, hrgba⟩ := diff_fields x y z
  simp [decode, hrgb, hrgba, hfamily, hx, hy, hz]

theorem decode_lumaBytes (x : BitVec 6) (y z : BitVec 4) (rest : List Byte) :
    decode ((0b10#2 ++ x) :: (y ++ z) :: rest) = .ok (.luma (x.toNat - 32) (y.toNat - 8) (z.toNat - 8), rest) := by
  obtain ⟨hfamily, hx⟩ := tag_fields 0b10#2 x
  obtain ⟨hrgb, hrgba⟩ := tag_not_literal 0b10#2 x (.inl (by decide))
  obtain ⟨hy, hz⟩ := nibble_fields y z
  simp [decode, hrgb, hrgba, hfamily, hx, hy, hz]

theorem decode_runByte {x : BitVec 6} (h : x.toNat < 62) (rest : List Byte) :
    decode ((0b11#2 ++ x) :: rest) = .ok (.run (x.toNat + 1), rest) := by
  obtain ⟨hfamily, hx⟩ := tag_fields 0b11#2 x
  obtain ⟨hrgb, hrgba⟩ := tag_not_literal 0b11#2 x (.inr h)
  simp [decode, hrgb, hrgba, hfamily, hx]

theorem decode_rgbBytes (r g b : Byte) (rest : List Byte) :
    decode (Config.tagRgb :: r :: g :: b :: rest) = .ok (.rgb r g b, rest) := rfl

theorem decode_rgbaBytes (r g b a : Byte) (rest : List Byte) :
    decode (Config.tagRgba :: r :: g :: b :: a :: rest) = .ok (.rgba r g b a, rest) := rfl

/-! ### The biased fields (R82), in both directions -/

/-- A quantity in range is its field without the bias. -/
theorem biased_toNat (w : Nat) {v bias : Int} (hlow : 0 ≤ v + bias) (hhigh : v + bias < 2 ^ w) :
    ((BitVec.ofInt w (v + bias)).toNat : Int) - bias = v := by
  rw [ofInt_toNat_of_range w _ hlow hhigh, Int.add_sub_cancel]

/-- A field is its quantity with the bias. -/
theorem biased_ofInt {w : Nat} (x : BitVec w) (bias : Int) : BitVec.ofInt w ((x.toNat : Int) - bias + bias) = x := by
  rw [Int.sub_add_cancel, BitVec.ofInt_natCast, BitVec.ofNat_toNat, BitVec.setWidth_eq]

/-- Settles O2, op by op: the fields of its bytes are its quantities with their biases, which fit. -/
theorem decodeOfEncodeIsTheOp : Obligations.DecodeOfEncodeIsTheOp := by
  intro i rest hwf
  cases i with
  | index slot =>
    refine (decode_indexByte _ rest).trans ?_
    rw [BitVec.toNat_ofNat, Nat.mod_eq_of_lt slot.isLt, Fin.ofNat_val_eq_self]
  | diff dr dg db =>
    obtain ⟨hr, hg, hb⟩ := (wellFormed_diff_iff dr dg db).1 hwf
    refine (decode_diffByte _ _ _ rest).trans ?_
    rw [biased_toNat, biased_toNat, biased_toNat] <;> omega
  | luma dg drg dbg =>
    obtain ⟨hg, hr, hb⟩ := (wellFormed_luma_iff dg drg dbg).1 hwf
    refine (decode_lumaBytes _ _ _ rest).trans ?_
    rw [biased_toNat, biased_toNat, biased_toNat] <;> omega
  | run n =>
    have hlt := runField_lt n hwf
    obtain ⟨hpos, hmax⟩ := (wellFormed_run_iff n).1 hwf
    refine (decode_runByte hlt rest).trans ?_
    rw [BitVec.toNat_ofNat, Nat.mod_eq_of_lt (by omega), Nat.sub_add_cancel hpos]
  | rgb r g b => exact decode_rgbBytes r g b rest
  | rgba r g b a => exact decode_rgbaBytes r g b a rest

/-! ### The six kinds of tag byte (R71) -/

/-- A word is its upper bits and its lower bits. -/
theorem exists_eq_append {m n : Nat} (t : BitVec (m + n)) : ∃ (x : BitVec m) (y : BitVec n), t = x ++ y :=
  ⟨t.extractLsb' n m, t.extractLsb' 0 n, Eq.symm <|
    calc t.extractLsb' n m ++ t.extractLsb' 0 n
      _ = t.extractLsb' 0 (m + n) := BitVec.extractLsb'_append_extractLsb'_eq_extractLsb' (Nat.zero_add n).symm
      _ = t := BitVec.extractLsb'_eq_self⟩

theorem family_cases : ∀ f : BitVec 2, f = 0b00#2 ∨ f = 0b01#2 ∨ f = 0b10#2 ∨ f = 0b11#2 := by decide

/-- The six bits of a DIFF byte are three fields of two (R73). -/
theorem diffByte_split : ∀ x : BitVec 6,
    0b01#2 ++ x = 0b01#2 ++ x.extractLsb' 4 2 ++ x.extractLsb' 2 2 ++ x.extractLsb' 0 2 := by decide

/-- R79: the two values above the RUN fields are the literal tags. -/
theorem literalTag_of_runField : ∀ x : BitVec 6, ¬ x.toNat < 62 →
    0b11#2 ++ x = Config.tagRgb ∨ 0b11#2 ++ x = Config.tagRgba := by decide

/-- R71: a tag is that of INDEX, DIFF, LUMA, RUN, RGB or RGBA. -/
theorem tag_cases (t : Byte) :
    (∃ x : BitVec 6, t = 0b00#2 ++ x) ∨ (∃ x y z : BitVec 2, t = 0b01#2 ++ x ++ y ++ z) ∨
      (∃ x : BitVec 6, t = 0b10#2 ++ x) ∨ (∃ x : BitVec 6, x.toNat < 62 ∧ t = 0b11#2 ++ x) ∨
      t = Config.tagRgb ∨ t = Config.tagRgba := by
  obtain ⟨f, x, rfl⟩ := exists_eq_append (m := 2) (n := 6) t
  rcases family_cases f with rfl | rfl | rfl | rfl
  · exact .inl ⟨x, rfl⟩
  · exact .inr (.inl ⟨_, _, _, diffByte_split x⟩)
  · exact .inr (.inr (.inl ⟨x, rfl⟩))
  · by_cases hx : x.toNat < 62
    · exact .inr (.inr (.inr (.inl ⟨x, hx, rfl⟩)))
    · exact .inr (.inr (.inr (.inr (literalTag_of_runField x hx))))

/-! ### Each tag with its payload (R80, R87) -/

/-- The payload length of R87, by the value of the tag. -/
theorem payloadLength_eq : ∀ t : Byte, payloadLength t =
    if t.toNat = 0xFE then 3 else if t.toNat = 0xFF then 4 else if 0x80 ≤ t.toNat ∧ t.toNat ≤ 0xBF then 1 else 0 := by
  decide

/-- The value of a tag by its family and its six bits more. -/
theorem tag_toNat : ∀ (f : BitVec 2) (x : BitVec 6), (f ++ x).toNat = 64 * f.toNat + x.toNat := by decide

theorem diffByte_range : ∀ x y z : BitVec 2,
    0x40 ≤ (0b01#2 ++ x ++ y ++ z).toNat ∧ (0b01#2 ++ x ++ y ++ z).toNat ≤ 0x7F := by decide

/-- The tag values of an op's kind (R71). -/
def tagRange (t : Byte) : Instr → Prop
  | .index _ => t.toNat ≤ 0x3F
  | .diff _ _ _ => 0x40 ≤ t.toNat ∧ t.toNat ≤ 0x7F
  | .luma _ _ _ => 0x80 ≤ t.toNat ∧ t.toNat ≤ 0xBF
  | .run _ => 0xC0 ≤ t.toNat ∧ t.toNat ≤ 0xFD
  | .rgb _ _ _ => t.toNat = 0xFE
  | .rgba _ _ _ _ => t.toNat = 0xFF

/-- The tag `t` with this payload is the op `i`, written and read. -/
structure IsOp (t : Byte) (payload : List Byte) (i : Instr) : Prop where
  wellFormed : i.wellFormed = true
  encode_eq : encode i = t :: payload
  decode_eq : ∀ rest, decode (t :: payload ++ rest) = .ok (i, rest)
  range : tagRange t i

theorem indexByte_isOp (x : BitVec 6) : IsOp (0b00#2 ++ x) [] (.index (Fin.ofNat 64 x.toNat)) where
  wellFormed := rfl
  encode_eq := by
    show [0b00#2 ++ BitVec.ofNat 6 (x.toNat % 64)] = [0b00#2 ++ x]
    rw [Nat.mod_eq_of_lt x.isLt, BitVec.ofNat_toNat, BitVec.setWidth_eq]
  decode_eq := decode_indexByte x
  range := by
    have hvalue : (0b00#2 ++ x).toNat = 0 + x.toNat := tag_toNat 0b00#2 x
    show (0b00#2 ++ x).toNat ≤ 0x3F
    omega

theorem diffByte_isOp (x y z : BitVec 2) :
    IsOp (0b01#2 ++ x ++ y ++ z) [] (.diff (x.toNat - 2) (y.toNat - 2) (z.toNat - 2)) where
  wellFormed := by
    rw [wellFormed_diff_iff]
    omega
  encode_eq := by rw [encode, biased_ofInt, biased_ofInt, biased_ofInt]
  decode_eq := decode_diffByte x y z
  range := diffByte_range x y z

theorem lumaBytes_isOp (x : BitVec 6) (y z : BitVec 4) :
    IsOp (0b10#2 ++ x) [y ++ z] (.luma (x.toNat - 32) (y.toNat - 8) (z.toNat - 8)) where
  wellFormed := by
    rw [wellFormed_luma_iff]
    omega
  encode_eq := by rw [encode, biased_ofInt, biased_ofInt, biased_ofInt]
  decode_eq := decode_lumaBytes x y z
  range := by
    have hvalue : (0b10#2 ++ x).toNat = 128 + x.toNat := tag_toNat 0b10#2 x
    show 0x80 ≤ (0b10#2 ++ x).toNat ∧ (0b10#2 ++ x).toNat ≤ 0xBF
    omega

theorem runByte_isOp {x : BitVec 6} (h : x.toNat < 62) : IsOp (0b11#2 ++ x) [] (.run (x.toNat + 1)) where
  wellFormed := (wellFormed_run_iff _).2 ⟨Nat.succ_pos _, h⟩
  encode_eq := by rw [encode, Nat.add_sub_cancel, BitVec.ofNat_toNat, BitVec.setWidth_eq]
  decode_eq := decode_runByte h
  range := by
    have hvalue : (0b11#2 ++ x).toNat = 192 + x.toNat := tag_toNat 0b11#2 x
    show 0xC0 ≤ (0b11#2 ++ x).toNat ∧ (0b11#2 ++ x).toNat ≤ 0xFD
    omega

theorem rgbBytes_isOp (r g b : Byte) : IsOp Config.tagRgb [r, g, b] (.rgb r g b) :=
  ⟨rfl, rfl, decode_rgbBytes r g b, rfl⟩

theorem rgbaBytes_isOp (r g b a : Byte) : IsOp Config.tagRgba [r, g, b, a] (.rgba r g b a) :=
  ⟨rfl, rfl, decode_rgbaBytes r g b a, rfl⟩

/-- R80: a tag with as many bytes as it calls for is an op. -/
theorem exists_isOp (t : Byte) (payload : List Byte) (hlen : payload.length = payloadLength t) :
    ∃ i, IsOp t payload i := by
  rcases tag_cases t with ⟨x, rfl⟩ | ⟨x, y, z, rfl⟩ | ⟨x, rfl⟩ | ⟨x, hx, rfl⟩ | rfl | rfl
  · rw [payloadLength_family _ _ (.inl (by decide))] at hlen
    rw [List.eq_nil_of_length_eq_zero hlen]
    exact ⟨_, indexByte_isOp x⟩
  · rw [payloadLength_diff] at hlen
    rw [List.eq_nil_of_length_eq_zero hlen]
    exact ⟨_, diffByte_isOp x y z⟩
  · rw [payloadLength_family _ _ (.inl (by decide))] at hlen
    obtain ⟨u, rfl⟩ := List.length_eq_one_iff.1 hlen
    obtain ⟨y, z, rfl⟩ := exists_eq_append (m := 4) (n := 4) u
    exact ⟨_, lumaBytes_isOp x y z⟩
  · rw [payloadLength_family _ _ (.inr hx)] at hlen
    rw [List.eq_nil_of_length_eq_zero hlen]
    exact ⟨_, runByte_isOp hx⟩
  · obtain ⟨r, g, b, rfl⟩ := List.length_eq_three.1 hlen
    exact ⟨_, rgbBytes_isOp r g b⟩
  · match payload, hlen with
    | [r, g, b, a], _ => exact ⟨_, rgbaBytes_isOp r g b a⟩

/-- Settles O4: the length asked for is that of R87. -/
theorem everyTagByteIsOneOp : Obligations.EveryTagByteIsOneOp := by
  intro t payload rest hlen
  obtain ⟨i, hi⟩ := exists_isOp t payload (hlen.trans (payloadLength_eq t).symm)
  refine ⟨i, hi.wellFormed, hi.encode_eq, hi.decode_eq rest, ?_⟩
  have hrange := hi.range
  cases i <;> exact hrange

/-- A payload shorter than the tag calls for is refused: the tag is one of the three that have a payload. -/
theorem decode_shortPayload (t : Byte) (payload : List Byte) (hlen : payload.length < payloadLength t) :
    decode (t :: payload) = .error (.shortPayload t) := by
  rcases tag_cases t with ⟨x, rfl⟩ | ⟨x, y, z, rfl⟩ | ⟨x, rfl⟩ | ⟨x, hx, rfl⟩ | rfl | rfl
  · rw [payloadLength_family _ _ (.inl (by decide))] at hlen
    exact absurd hlen (Nat.not_lt_zero _)
  · rw [payloadLength_diff] at hlen
    exact absurd hlen (Nat.not_lt_zero _)
  · rw [payloadLength_family _ _ (.inl (by decide))] at hlen
    obtain rfl : payload = [] := List.eq_nil_of_length_eq_zero (Nat.lt_one_iff.1 hlen)
    obtain ⟨hfamily, -⟩ := tag_fields 0b10#2 x
    obtain ⟨hrgb, hrgba⟩ := tag_not_literal 0b10#2 x (.inl (by decide))
    simp [decode, hrgb, hrgba, hfamily]
  · rw [payloadLength_family _ _ (.inr hx)] at hlen
    exact absurd hlen (Nat.not_lt_zero _)
  · match payload, hlen with
    | [], _ | [_], _ | [_, _], _ => rfl
  · match payload, hlen with
    | [], _ | [_], _ | [_, _], _ | [_, _, _], _ => rfl

/-- Settles O5. -/
theorem shortStreamsAreRefusedByName : Obligations.ShortStreamsAreRefusedByName :=
  ⟨rfl, decode_shortPayload⟩

/-- Settles O3: bytes that are read hold a tag and its whole payload, which are one op; so that op is the one read. -/
theorem encodeOfDecodeIsTheBytes : Obligations.EncodeOfDecodeIsTheBytes := by
  intro bytes i rest hread
  cases bytes with
  | nil => cases hread
  | cons t tail =>
    rcases Nat.lt_or_ge tail.length (payloadLength t) with hshort | hlong
    · cases (decode_shortPayload t tail hshort).symm.trans hread
    · obtain ⟨j, hj⟩ := exists_isOp t (tail.take (payloadLength t)) (List.length_take_of_le hlong)
      have hread' := hj.decode_eq (tail.drop (payloadLength t))
      rw [List.cons_append, List.take_append_drop] at hread'
      cases hread'.symm.trans hread
      exact ⟨hj.wellFormed, by rw [hj.encode_eq, List.cons_append, List.take_append_drop]⟩

/-! ### The packing formulas (R72 to R77) -/

/-- A field that its value fits is a byte of that value, cut down to the field. -/
theorem ofNat_eq_setWidth {w n : Nat} (hw : w ≤ 8) (hn : n < 2 ^ w) :
    BitVec.ofNat 8 n = (BitVec.ofNat w n).setWidth 8 :=
  (BitVec.setWidth_ofNat_of_le_of_lt hw hn).symm

theorem ofInt_eq_setWidth {w : Nat} {v : Int} (hw : w ≤ 8) (hlow : 0 ≤ v) (hhigh : v < 2 ^ w) :
    BitVec.ofInt 8 v = (BitVec.ofInt w v).setWidth 8 := by
  obtain ⟨n, rfl⟩ := Int.eq_ofNat_of_zero_le hlow
  rw [BitVec.ofInt_natCast, BitVec.ofInt_natCast]
  exact ofNat_eq_setWidth hw (by exact_mod_cast hhigh)

theorem familyByte_formulas : ∀ x : BitVec 6, 0b00#2 ++ x = x.setWidth 8 ∧
    0b10#2 ++ x = 0x80#8 ||| x.setWidth 8 ∧ 0b11#2 ++ x = 0xC0#8 ||| x.setWidth 8 := by decide

theorem diffByte_formula : ∀ x y z : BitVec 2, 0b01#2 ++ x ++ y ++ z =
    0x40#8 ||| (x.setWidth 8 <<< 4) ||| (y.setWidth 8 <<< 2) ||| z.setWidth 8 := by decide

theorem nibbles_formula : ∀ y z : BitVec 4, y ++ z = (y.setWidth 8 <<< 4) ||| z.setWidth 8 := by decide

theorem encode_index (slot : Slot) : encode (.index slot) = [BitVec.ofNat 8 slot.val] := by
  obtain ⟨hbyte, -⟩ := familyByte_formulas (BitVec.ofNat 6 slot.val)
  rw [encode, hbyte, ofNat_eq_setWidth (w := 6) (by decide) slot.isLt]

theorem encode_diff {dr dg db : Int} (hr : -2 ≤ dr ∧ dr ≤ 1) (hg : -2 ≤ dg ∧ dg ≤ 1) (hb : -2 ≤ db ∧ db ≤ 1) :
    encode (.diff dr dg db) = [Machine.diffByte dr dg db] := by
  rw [encode, diffByte_formula, ← ofInt_eq_setWidth (by decide), ← ofInt_eq_setWidth (by decide),
    ← ofInt_eq_setWidth (by decide)]
  · rfl
  all_goals omega

theorem encode_luma {dg drg dbg : Int} (hg : -32 ≤ dg ∧ dg ≤ 31) (hr : -8 ≤ drg ∧ drg ≤ 7) (hb : -8 ≤ dbg ∧ dbg ≤ 7) :
    encode (.luma dg drg dbg) = Machine.lumaBytes dg drg dbg := by
  obtain ⟨-, hbyte, -⟩ := familyByte_formulas (BitVec.ofInt 6 (dg + 32))
  rw [encode, hbyte, nibbles_formula, ← ofInt_eq_setWidth (by decide), ← ofInt_eq_setWidth (by decide),
    ← ofInt_eq_setWidth (by decide)]
  · rfl
  all_goals omega

theorem encode_run {n : Nat} (h : (Instr.run n).wellFormed = true) : encode (.run n) = [Machine.runByte n] := by
  obtain ⟨-, -, hbyte⟩ := familyByte_formulas (BitVec.ofNat 6 (n - 1))
  obtain ⟨-, hmax⟩ := (wellFormed_run_iff n).1 h
  rw [encode, hbyte, ← ofNat_eq_setWidth (by decide) (by omega)]
  rfl

/-- R79: the byte of a well-formed RUN is a RUN tag. -/
theorem runByte_range {n : Nat} (h : (Instr.run n).wellFormed = true) :
    0xC0 ≤ (Machine.runByte n).toNat ∧ (Machine.runByte n).toNat ≤ 0xFD := by
  obtain ⟨hbyte, -⟩ := List.cons.inj (encode_run h)
  rw [← hbyte]
  exact (runByte_isOp (runField_lt n h)).range

/-- Settles O6, format by format. -/
theorem opBytesFollowTheFormats : Obligations.OpBytesFollowTheFormats := by
  refine ⟨encode_index, fun dr dg db r0 r1 g0 g1 b0 b1 => encode_diff ⟨r0, r1⟩ ⟨g0, g1⟩ ⟨b0, b1⟩,
    fun dg drg dbg g0 g1 r0 r1 b0 b1 => encode_luma ⟨g0, g1⟩ ⟨r0, r1⟩ ⟨b0, b1⟩, fun n hpos hmax => ?_,
    fun _ _ _ => rfl, fun _ _ _ _ => rfl⟩
  have hwf := (wellFormed_run_iff n).2 ⟨hpos, hmax⟩
  exact ⟨encode_run hwf, runByte_range hwf⟩

/-- Settles O1, word by word. -/
theorem tableWordsDecodeToTheirOps : Obligations.TableWordsDecodeToTheirOps := by
  unfold Obligations.TableWordsDecodeToTheirOps
  decide

end Sys2Proof
end

section
/-! PROOF. The terminator's pattern stands only at the end (42_terminator_and_sizing.md rule R179). A pattern needs seven zero
bytes in a row; header and ops together never hold more than six. The state keeps this because an op that is all zero, INDEX
0, is never followed by another one: it makes the pixel of slot 0 the previous one. -/

namespace Sys2Proof

/-! ### Zero bytes in a row -/

/-- How many zero bytes end the byte list. -/
def zeroTail (bytes : List Byte) : Nat := bytes.foldl (fun zeros b => if b = 0 then zeros + 1 else 0) 0

/-- No more than `n` zero bytes stand in a row. -/
def ZeroRunsAtMost (n : Nat) (bytes : List Byte) : Prop := ∀ before, before <+: bytes → zeroTail before ≤ n

theorem zeroTail_concat (bytes : List Byte) (b : Byte) :
    zeroTail (bytes ++ [b]) = if b = 0 then zeroTail bytes + 1 else 0 := by
  rw [zeroTail, List.foldl_append]
  rfl

theorem zeroTail_concat_le (bytes : List Byte) (b : Byte) : zeroTail (bytes ++ [b]) ≤ zeroTail bytes + 1 := by
  rw [zeroTail_concat]
  split <;> omega

theorem zeroTail_append_zeros (bytes : List Byte) (n : Nat) :
    zeroTail (bytes ++ List.replicate n 0) = zeroTail bytes + n := by
  induction n with
  | zero => rw [List.replicate_zero, List.append_nil, Nat.add_zero]
  | succ n ih => rw [List.replicate_succ', ← List.append_assoc, zeroTail_concat, if_pos rfl, ih, Nat.add_assoc]

variable {n : Nat} {bytes more : List Byte}

theorem ZeroRunsAtMost.concat {b : Byte} (h : ZeroRunsAtMost n bytes) (hb : zeroTail (bytes ++ [b]) ≤ n) :
    ZeroRunsAtMost n (bytes ++ [b]) := by
  intro before hbefore
  rcases List.prefix_concat_iff.1 hbefore with rfl | hbefore
  · exact hb
  · exact h before hbefore

/-- Each byte that joins makes the zeros at the end at most one more. -/
theorem ZeroRunsAtMost.append (h : ZeroRunsAtMost n bytes) (hle : zeroTail bytes + more.length ≤ n) :
    ZeroRunsAtMost n (bytes ++ more) ∧ zeroTail (bytes ++ more) ≤ zeroTail bytes + more.length := by
  induction more generalizing bytes with
  | nil => rw [List.append_nil]; exact ⟨h, Nat.le_add_right _ _⟩
  | cons b more ih =>
    have hone := zeroTail_concat_le bytes b
    rw [List.length_cons] at hle ⊢
    obtain ⟨hruns, htail⟩ := ih (h.concat (b := b) (by omega)) (by omega)
    rw [List.append_cons]
    exact ⟨hruns, by omega⟩

/-- After a byte that is not zero the count begins again. -/
theorem ZeroRunsAtMost.append_nonzero {b : Byte} (h : ZeroRunsAtMost n bytes) (hb : b ≠ 0) (hlen : more.length ≤ n) :
    ZeroRunsAtMost n (bytes ++ b :: more) ∧ zeroTail (bytes ++ b :: more) ≤ more.length := by
  have hzero : zeroTail (bytes ++ [b]) = 0 := (zeroTail_concat bytes b).trans (if_neg hb)
  obtain ⟨hruns, htail⟩ := (h.concat (hzero.trans_le (Nat.zero_le n))).append (more := more) (by omega)
  rw [List.append_cons]
  exact ⟨hruns, by omega⟩

/-- Bytes that are not all zero join at most the zeros before their first other byte, and leave at most those after it. -/
theorem ZeroRunsAtMost.append_of_mem {b : Byte} (h : ZeroRunsAtMost n bytes) (hmem : b ∈ more) (hb : b ≠ 0)
    (hle : zeroTail bytes + more.length ≤ n + 1) :
    ZeroRunsAtMost n (bytes ++ more) ∧ zeroTail (bytes ++ more) < more.length := by
  obtain ⟨zeros, after, rfl⟩ := List.append_of_mem hmem
  rw [List.length_append, List.length_cons] at hle ⊢
  obtain ⟨hruns, -⟩ := h.append (more := zeros) (by omega)
  obtain ⟨hruns, htail⟩ := hruns.append_nonzero (more := after) hb (by omega)
  rw [← List.append_assoc]
  exact ⟨hruns, by omega⟩

/-! ### The pattern -/

theorem terminator_length : Config.terminator.length = 8 := rfl

/-- The last byte of the terminator is its only 1 (R85). -/
theorem terminator_one : ∀ j < 8, Config.terminator[j]? = some 1 → j = 7 := by decide

/-- Where seven zeros never stand in a row, the pattern of the terminator put behind stands only there. -/
theorem terminator_unique {body before after : List Byte} (h : ZeroRunsAtMost 6 body)
    (heq : body ++ Config.terminator = before ++ Config.terminator ++ after) : after = [] := by
  have hpattern : before ++ Config.terminator ++ after = before ++ List.replicate 7 0 ++ 1 :: after := by
    rw [show Config.terminator = List.replicate 7 0 ++ [1] from rfl]
    simp only [List.append_assoc, List.singleton_append]
  rw [hpattern, List.append_eq_append_iff] at heq
  rcases heq with ⟨c, -, hterm⟩ | ⟨c, hbody, -⟩
  · have hlen := congrArg List.length hterm
    have hone : Config.terminator[c.length]? = some 1 := by rw [hterm]; simp
    rw [List.length_append, List.length_cons, terminator_length] at hlen
    have hc := terminator_one c.length (by omega) hone
    exact List.eq_nil_of_length_eq_zero (by omega)
  · have hzeros := h (before ++ List.replicate 7 0) ⟨c, hbody.symm⟩
    rw [zeroTail_append_zeros] at hzeros
    omega

/-! ### The header and the ops -/

/-- A word that is not 0 has a byte that is not 0. -/
theorem bigEndian_nonzero {w : Word} (h : w ≠ 0) : ∃ b ∈ bigEndian w, b ≠ 0 := by
  by_contra hall
  push Not at hall
  have hlanes : Pixel.ofWord w = ⟨0, 0, 0, 0⟩ := by
    simp only [bigEndian, List.forall_mem_cons] at hall
    obtain ⟨hr, hg, hb, ha, -⟩ := hall
    rw [Pixel.ofWord, hr, hg, hb, ha]
  have hpack := Pixel.pack_ofWord w
  rw [hlanes] at hpack
  exact h hpack.symm

theorem magic_zeros : ZeroRunsAtMost 6 Config.magic ∧ zeroTail Config.magic = 0 := by
  have hnil : ZeroRunsAtMost 6 [] := fun before h => by rw [List.prefix_nil.1 h]; exact Nat.zero_le 6
  obtain ⟨hruns, -⟩ := hnil.append (more := [0x71, 0x6F, 0x69]) (by decide)
  exact ⟨(hruns.append_nonzero (b := 0x66) (more := []) (by decide) (by decide)).1, rfl⟩

/-- At most six zero bytes stand in a row in the header of a valid description: three of a width and three of a height. -/
theorem header_zeros {a : Machine.StartArgs} (hw : a.width ≠ 0) (hh : a.height ≠ 0) (hch : a.channels ≠ 0) :
    ZeroRunsAtMost 6 (Machine.header a) ∧ zeroTail (Machine.header a) ≤ 1 := by
  obtain ⟨bw, hbw, hw⟩ := bigEndian_nonzero hw
  obtain ⟨bh, hbh, hh⟩ := bigEndian_nonzero hh
  have hfour (w : Word) : (bigEndian w).length = 4 := rfl
  obtain ⟨hruns, htail⟩ := magic_zeros
  obtain ⟨hruns, htail⟩ := hruns.append_of_mem hbw hw (by rw [htail, hfour]; decide)
  rw [hfour] at htail
  obtain ⟨hruns, -⟩ := hruns.append_of_mem hbh hh (by rw [hfour]; omega)
  exact hruns.append_nonzero (more := [a.colorspace]) hch (Nat.succ_le_succ (Nat.zero_le 5))

theorem familyByte_ne_zero : ∀ (f : BitVec 2) (x : BitVec 6), f ≠ 0 → f ++ x ≠ (0 : Byte) := by decide

theorem diffByte_ne_zero : ∀ x y z : BitVec 2, 0b01#2 ++ x ++ y ++ z ≠ (0 : Byte) := by decide

theorem indexByte_ne_zero : ∀ slot : Slot, slot ≠ 0 → BitVec.ofNat 8 slot.val ≠ 0 := by decide

/-- INDEX 0 is the only op that begins with a zero byte; every op has at most four bytes after its first (R71). -/
theorem encode_tag_nonzero (i : Instr) :
    i = .index 0 ∨ ∃ t payload, encode i = t :: payload ∧ t ≠ 0 ∧ payload.length ≤ 4 := by
  cases i with
  | index slot =>
    by_cases hslot : slot = 0
    · exact .inl (by rw [hslot])
    · exact .inr ⟨_, [], encode_index slot, indexByte_ne_zero slot hslot, by simp⟩
  | diff dr dg db => exact .inr ⟨_, [], rfl, diffByte_ne_zero _ _ _, by simp⟩
  | luma dg drg dbg => exact .inr ⟨_, [_], rfl, familyByte_ne_zero 0b10#2 _ (by decide), by simp⟩
  | run n => exact .inr ⟨_, [], rfl, familyByte_ne_zero 0b11#2 _ (by decide), by simp⟩
  | rgb r g b => exact .inr ⟨Config.tagRgb, [r, g, b], rfl, by decide, by simp⟩
  | rgba r g b a => exact .inr ⟨Config.tagRgba, [r, g, b, a], rfl, by decide, by simp⟩

namespace Machine

/-! ### The pixels of an encode -/

variable {s t : State} {p : Pixel}

@[simp] theorem State.flushed_prev (s : State) : s.flushed.prev = s.prev := by rw [flushed_eq]; rfl

@[simp] theorem State.flushed_cacheAt (s : State) (k : Slot) : s.flushed.cacheAt k = s.cacheAt k := by
  rw [flushed_eq]; rfl

/-- R144: the pixel that INDEX stands for is in its slot, and the slot is the pixel's. -/
theorem chooseOp_eq_index_iff (px : Pixel) (s : State) (slot : Slot) :
    chooseOp px s = .index slot ↔ slot = hash6 px ∧ s.cacheAt slot = px := by
  constructor
  · intro h
    rcases chooseOp_cases px s with ⟨hhit, e⟩ | ⟨-, -, e⟩ | ⟨-, -, -, e⟩ | ⟨-, -, -, -, e⟩ | ⟨-, -, -, -, e⟩ <;>
      cases e.symm.trans h
    exact ⟨rfl, hhit⟩
  · rintro ⟨rfl, hhit⟩
    exact chooseOp_of_hit hhit

/-- The history of an encode in progress holds no seven zeros in a row, and a next INDEX 0 cannot make seven: where five end it,
the last op was INDEX 0 and the pixel of slot 0 is the previous one, which is a repeat and no INDEX. -/
structure State.ZeroGuard (s : State) : Prop where
  runs : ZeroRunsAtMost 6 s.out
  tail : zeroTail s.out ≤ 4 ∨ zeroTail s.out ≤ 5 ∧ s.prev = s.cacheAt 0

/-- An op keeps the guard if, when it is INDEX 0, slot 0 does not hold the previous pixel before it and does after it. -/
theorem State.ZeroGuard.emit_op {i : Instr} (h : s.ZeroGuard) (hout : t.out = s.out ++ encode i)
    (hindex : i = .index 0 → s.prev ≠ s.cacheAt 0 ∧ t.prev = t.cacheAt 0) : t.ZeroGuard := by
  rcases encode_tag_nonzero i with rfl | ⟨tag, payload, e, htag, hlen⟩
  · obtain ⟨hne, heq⟩ := hindex rfl
    have htail : zeroTail s.out ≤ 4 := h.tail.resolve_right fun hfive => hne hfive.2
    have hone : (encode (.index 0)).length = 1 := rfl
    obtain ⟨hruns, hfive⟩ := h.runs.append (more := encode (.index 0)) (by omega)
    rw [← hout] at hruns hfive
    exact ⟨hruns, .inr ⟨by omega, heq⟩⟩
  · rw [e] at hout
    obtain ⟨hruns, htail⟩ := h.runs.append_nonzero htag (more := payload) (by omega)
    rw [← hout] at hruns htail
    exact ⟨hruns, .inl (htail.trans hlen)⟩

theorem State.ZeroGuard.flushed (h : s.ZeroGuard) : s.flushed.ZeroGuard := by
  unfold State.flushed
  split
  · exact h
  · exact h.emit_op rfl nofun

/-- R81: a pixel that is no repeat is no INDEX of the slot that the previous pixel was an INDEX of. -/
theorem opSelect_zeroGuard (hs : s.ZeroGuard) (h : opSelect p s = .next t) : t.ZeroGuard := by
  rcases opSelect_cases p s with ⟨-, -, e⟩ | ⟨-, -, -, e⟩ | ⟨hne, -, e⟩ | ⟨-, hmiss, e⟩ <;> cases e.symm.trans h
  · exact hs.emit_op rfl nofun
  · exact ⟨hs.runs, hs.tail⟩
  · refine hs.flushed.emit_op rfl fun hindex => ?_
    obtain ⟨-, hheld⟩ := (chooseOp_eq_index_iff _ s 0).1 hindex
    simp [hheld, hne.symm]
  · refine hs.flushed.emit_op rfl fun hindex => ?_
    obtain ⟨hslot, hheld⟩ := (chooseOp_eq_index_iff _ s 0).1 hindex
    exact absurd (hslot ▸ hheld) hmiss

/-- What an encode has left in `out`, in progress and complete (R170, R179). -/
structure State.PatternGuard (s : State) : Prop where
  running : s.phase = .running → s.ZeroGuard
  done : s.phase = .done → ∃ body, s.out = body ++ Config.terminator ∧ ZeroRunsAtMost 6 body

theorem State.PatternGuard.pixel (hs : s.PatternGuard) (h : pixel p s = .next t) : t.PatternGuard := by
  rcases pixel_cases h with ⟨-, rfl⟩ | ⟨hphase, u, hu, rfl⟩
  · exact hs
  · obtain ⟨hphase', -⟩ := opSelect_frame hu
    have hguard := opSelect_zeroGuard (hs.running hphase) hu
    rcases finishPixel_cases u with ⟨-, e⟩ | ⟨-, e⟩ <;> rw [e]
    · exact ⟨nofun, fun _ => ⟨u.out, rfl, hguard.runs⟩⟩
    · exact ⟨fun _ => ⟨hguard.runs, hguard.tail⟩, fun hdone => nomatch (hphase'.trans hphase).symm.trans hdone⟩

theorem State.PatternGuard.pixels (ps : List Pixel) : ∀ {s : State}, s.PatternGuard → pixels ps s = .next t →
    t.PatternGuard := by
  induction ps with
  | nil =>
    intro s hs h
    cases h
    exact hs
  | cons p ps ih =>
    intro s hs h
    obtain ⟨u, hu⟩ := pixel_answers p s
    rw [Machine.pixels, hu, andThen_next] at h
    exact ih (hs.pixel hu) h

/-- R107: the header of a valid description begins an encode with the guard. -/
theorem start_valid_patternGuard {a : StartArgs} (hphase : s.phase ≠ .running) (ha : validate a = .none) :
    (start a s).PatternGuard := by
  obtain ⟨hrunning, -, hout⟩ := start_valid_begins hphase ha
  obtain ⟨⟨hw, hh, -⟩, ⟨hch, -⟩, -⟩ := (validate_none_iff a).1 ha
  have hpos {x : Word} (h : 0 < x.toNat) : x ≠ 0 := by rintro rfl; exact absurd h (by decide)
  obtain ⟨hruns, htail⟩ := header_zeros (hpos hw) (hpos hh) (by rcases hch with h | h <;> rw [h] <;> decide)
  rw [← hout] at hruns htail
  exact ⟨fun _ => ⟨hruns, .inl (by omega)⟩, fun hdone => nomatch hrunning.symm.trans hdone⟩

/-- Settles O49: the guard holds from START to DONE, and then the stream is a body without seven zeros in a row and the
terminator. -/
theorem terminatorPatternOccursOnlyAtTheEnd : Obligations.TerminatorPatternOccursOnlyAtTheEnd := by
  intro w h ch cs buf s t hv hphase hrun k hpattern
  have hpattern : (t.out.drop k).take 8 = Config.terminator := hpattern
  obtain ⟨u, ops, hu, -, -, hencoded⟩ := encodeRun_encoded hv hphase
  cases hu.symm.trans hrun
  have hguard := (start_valid_patternGuard hphase (validate_of_validImage hv)).pixels _ hrun
  obtain ⟨body, hout, hbody⟩ := hguard.done hencoded.phase
  have hsplit : t.out = t.out.take k ++ Config.terminator ++ (t.out.drop k).drop 8 := by
    rw [List.append_assoc, ← hpattern, List.take_append_drop, List.take_append_drop]
  have hafter := terminator_unique hbody (hout.symm.trans hsplit)
  have hlen := congrArg List.length hpattern
  rw [List.drop_drop, List.drop_eq_nil_iff] at hafter
  rw [List.length_take, List.length_drop, terminator_length] at hlen
  omega

end Machine

end Sys2Proof
end

section
/-! PROOF. The six ops complete, each with its whole effect (41_op_selector.md rules R143 to R149), and the ops that the
selector's priority excludes (30_encoding.md rule R81). -/

namespace Sys2Proof.Machine

/-! ### The six ops -/

/-- Settles O11, from the equation of INDEX and its byte. -/
theorem indexOpCompletes : Obligations.IndexOpCompletes := by
  intro slot s
  rw [exec_index, encode_index]
  rfl

/-- Settles O12, from the equation of RUN and its byte. -/
theorem runOpCompletes : Obligations.RunOpCompletes := by
  intro n s hpos hmax
  rw [exec_run, encode_run ((wellFormed_run_iff n).2 ⟨hpos, hmax⟩)]
  rfl

/-- R134 read from right to left, channel by channel. -/
theorem addDeltas_eq (prev : Pixel) (dr dg db : Int) :
    prev.addDeltas dr dg db = ⟨BitVec.ofInt 8 (prev.r.toNat + dr), BitVec.ofInt 8 (prev.g.toNat + dg),
      BitVec.ofInt 8 (prev.b.toNat + db), prev.a⟩ := by
  rw [Pixel.addDeltas, channel_add, channel_add, channel_add]

/-- Settles O13: the pixel is `prev` plus the deltas, which a pixel with these deltas is too. -/
theorem diffOpCompletes : Obligations.DiffOpCompletes := by
  intro dr dg db s r0 r1 g0 g1 b0 b1
  refine ⟨_, addDeltas_eq s.prev dr dg db, ?_, ?_⟩
  · rintro q ha rfl rfl rfl
    exact Pixel.addDeltas_deltas q s.prev ha
  · rw [exec_diff, State.encodeMissed, encode_diff ⟨r0, r1⟩ ⟨g0, g1⟩ ⟨b0, b1⟩]
    rfl

/-- Settles O14: as DIFF, with the red and blue deltas added up from the green one (R135). -/
theorem lumaOpCompletes : Obligations.LumaOpCompletes := by
  intro dg drg dbg s g0 g1 r0 r1 b0 b1
  refine ⟨_, addDeltas_eq s.prev (drg + dg) dg (dbg + dg), ?_, ?_⟩
  · rintro q ha rfl rfl rfl
    rw [relRed_add, relBlue_add]
    exact Pixel.addDeltas_deltas q s.prev ha
  · rw [exec_luma, State.encodeMissed, encode_luma ⟨g0, g1⟩ ⟨r0, r1⟩ ⟨b0, b1⟩]
    rfl

/-- Settles O15: it is the equation of RGB, with `encodeMissed` written out. -/
theorem rgbOpCompletes : Obligations.RgbOpCompletes := exec_rgb

/-- Settles O16: it is the equation of RGBA, with `encodeMissed` written out. -/
theorem rgbaOpCompletes : Obligations.RgbaOpCompletes := exec_rgba

/-! ### The ops that are never formed -/

variable {px : Pixel} {s : State}

/-- R147: only `prev` itself has the deltas 0 and the alpha of `prev`. -/
theorem deltas_ne_zero (ha : px.a = s.prev.a) (hne : px ≠ s.prev) :
    ¬ (deltaRed px s.prev = 0 ∧ deltaGreen px s.prev = 0 ∧ deltaBlue px s.prev = 0) := by
  rintro ⟨hr, hg, hb⟩
  have hpx := Pixel.addDeltas_deltas px s.prev ha
  rw [hr, hg, hb] at hpx
  exact hne (hpx.symm.trans (by simp [Pixel.addDeltas]))

/-- R81: the op of a pixel that is no repeat is no DIFF of zeros and no LUMA that fits DIFF. -/
theorem chooseOp_emittable (hne : px ≠ s.prev) : (chooseOp px s).emittable = true := by
  have hwf := chooseOp_wellFormed px s
  rcases chooseOp_cases px s with ⟨-, e⟩ | ⟨-, -, e⟩ | ⟨-, ha, -, e⟩ | ⟨-, ha, hdiff, -, e⟩ | ⟨-, -, -, -, e⟩ <;>
    rw [e] at hwf ⊢ <;> rw [Instr.emittable, hwf, Bool.true_and]
  · have hzero := deltas_ne_zero ha hne
    simp only [Bool.not_eq_true', Bool.and_eq_false_iff, decide_eq_false_iff_not]
    tauto
  · rw [relRed_add, relBlue_add]
    exact congrArg (!·) hdiff

/-- R136: no RGB literal when the deltas fit LUMA or alpha changed. -/
theorem chooseOp_ne_rgb (h : px.a ≠ s.prev.a ∨ s.lumaOk px = true) (r g b : Byte) : chooseOp px s ≠ .rgb r g b := by
  intro hc
  rcases chooseOp_cases px s with ⟨-, e⟩ | ⟨-, -, e⟩ | ⟨-, -, -, e⟩ | ⟨-, -, -, -, e⟩ | ⟨-, ha, -, hluma, e⟩ <;>
    cases e.symm.trans hc
  rcases h with h | h
  · exact h ha
  · exact absurd (h.symm.trans hluma) (by decide)

/-- R146: no DIFF or LUMA when alpha changed. -/
theorem chooseOp_ne_delta (h : px.a ≠ s.prev.a) (dr dg db : Int) :
    chooseOp px s ≠ .diff dr dg db ∧ chooseOp px s ≠ .luma dr dg db := by
  rcases chooseOp_cases px s with ⟨-, e⟩ | ⟨-, -, e⟩ | ⟨-, ha, -⟩ | ⟨-, ha, -⟩ | ⟨-, ha, -⟩
  · rw [e]
    exact ⟨nofun, nofun⟩
  · rw [e]
    exact ⟨nofun, nofun⟩
  all_goals exact absurd ha h

/-- R146: RGBA only when alpha changed. -/
theorem chooseOp_ne_rgba (h : px.a = s.prev.a) (r g b a : Byte) : chooseOp px s ≠ .rgba r g b a := by
  intro hc
  rcases chooseOp_cases px s with ⟨-, e⟩ | ⟨-, ha, -⟩ | ⟨-, -, -, e⟩ | ⟨-, -, -, -, e⟩ | ⟨-, -, -, -, e⟩
  · cases e.symm.trans hc
  · exact ha h
  all_goals cases e.symm.trans hc

/-- Settles O20, row by row of the selector; in 3-channel mode alpha never changes (R36 item 3, R133), and a pixel held in the
slot of the last INDEX is `prev`. -/
theorem selectorNeverEmitsTheExcludedOps : Obligations.SelectorNeverEmitsTheExcludedOps := by
  intro p px s hi hphase hpx
  have hrun := hi.run_le
  refine ⟨chooseOp_emittable, fun hne => ?_, (wellFormed_run_iff _).2 ⟨by omega, by omega⟩, chooseOp_of_hit,
    chooseOp_ne_delta, fun ha => chooseOp_ne_rgb (.inl ha), fun hluma => chooseOp_ne_rgb (.inr hluma),
    fun hch => chooseOp_ne_rgba ?_, fun slot t ht hne hindex => ?_⟩
  · exact flushOps_wellFormed hrun _ (by rw [State.flushOps, if_neg hne]; exact List.mem_singleton_self _)
  · rw [hpx, normalise_opaque hch, hi.opaque_prev hch (.inl hphase)]
  · cases ht
    exact hne ((chooseOp_eq_index_iff px _ slot).1 hindex).2.symm

end Sys2Proof.Machine
end

section
/-! PROOF. What a step at the ports does with a command (40_control.md rules R100 to R117): a command that is not accepted, an
accepted PIXEL as the ops it runs, and START with valid and with invalid operands. -/

namespace Sys2Proof.Machine

variable {s t : State} {p px : Pixel}

/-! ### Commands that are not accepted -/

/-- Settles O26: the hypotheses exclude RESET, START and PIXEL, and what is left of a step is the beat. -/
theorem commandsNotAcceptedDoNothing : Obligations.CommandsNotAcceptedDoNothing := by
  intro s hrst hstart hpixel
  rw [List.drop_one, List.drop_one]
  rcases step_cases s with ⟨hrst', -⟩ | ⟨-, hstart', hphase, -⟩ | ⟨-, hphase, hpix, hwait, -⟩ | ⟨-, -, -, e⟩
  · exact absurd (hrst'.symm.trans hrst) (by decide)
  · exact (hstart.elim (fun h => absurd (hstart'.symm.trans h) (by decide)) hphase).elim
  · rcases hpixel with h | h | h
    · exact absurd (hpix.symm.trans h) (by decide)
    · exact absurd hphase h
    · exact absurd hwait h
  · exact e

/-! ### An accepted PIXEL -/

/-- R100, R102: in RUNNING, with no byte waiting, an offered pixel is taken. -/
theorem step_of_accepted (hrst : s.ports.rst = false) (hpix : s.ports.pixValid = true) (hphase : s.phase = .running)
    (hwait : s.outPending = []) : step s = pixel (Pixel.ofWord s.ports.pixData) s.beat := by
  obtain ⟨-, -, htaken, -⟩ := oneCommandIsTakenPerStep s
  exact htaken hrst (.inr hphase) hpix (by simp [State.pixReady, State.busy, hphase, hwait])

theorem pixel_of_running (h : s.phase = .running) :
    pixel p s = andThen (opSelect p s) fun t => .next t.finishPixel := if_pos h

theorem opSelect_of_repeat (h : normalise s.cfgChannels p = s.prev) : opSelect p s = repeatStep s :=
  if_pos (decide_eq_true h)

theorem opSelect_of_ne (h : normalise s.cfgChannels p ≠ s.prev) :
    opSelect p s = encodeStep (normalise s.cfgChannels p) s :=
  if_neg fun e => h (of_decide_eq_true e)

/-- With no run pending, a pixel that is no repeat is its chosen op (R144 to R149). -/
theorem encodeStep_of_run_eq_zero (h : s.run = 0) : encodeStep px s = exec (chooseOp px s) s := by
  rw [encodeStep, flush, if_pos h, andThen_next]

/-- A pending run is flushed first (R142), which does not change the choice. -/
theorem encodeStep_of_run_ne_zero (h : s.run ≠ 0) :
    encodeStep px s = andThen (exec (.run s.run.toNat) s) fun t => exec (chooseOp px s) t := by
  rw [encodeStep, flush, if_neg h, exec_run, andThen_next, andThen_next]
  exact congrArg (exec · _) (chooseOp_congr px rfl rfl)

/-- R141: a repeat that reaches 62 or the last pixel ends the run. -/
theorem repeatStep_of_due (h : s.run + 1 = 62 ∨ s.pos.toNat + 1 = s.total) :
    repeatStep s = exec (.run (s.run + 1).toNat) (s.setRun (s.run + 1)) := by
  rcases repeatStep_cases s with ⟨-, e⟩ | ⟨hmax, hlast, -⟩
  · exact e
  · exact (h.elim hmax hlast).elim

/-- R140: any other repeat only lengthens it. -/
theorem repeatStep_of_not_due (hmax : s.run + 1 ≠ 62) (hlast : s.pos.toNat + 1 ≠ s.total) :
    repeatStep s = .next (s.setRun (s.run + 1)) := by
  rcases repeatStep_cases s with ⟨hdue, -⟩ | ⟨-, -, e⟩
  · exact (hdue.elim hmax hlast).elim
  · exact e

/-- Settles O22: the step is the PIXEL on `s.beat`, which has the pixel, the run and the position of `s`; the four clauses are
the branches of the op-selector. -/
theorem stepRunsTheSelectedOps : Obligations.StepRunsTheSelectedOps := by
  rintro s px hrst hpix hphase hwait rfl
  rw [step_of_accepted hrst hpix hphase hwait, pixel_of_running (s := s.beat) hphase]
  refine ⟨fun hne hrun => ?_, fun hne hrun => ?_, fun heq hdue => ?_, fun heq hmax hlast => ?_⟩
  · rw [opSelect_of_ne (s := s.beat) hne, encodeStep_of_run_eq_zero (s := s.beat) hrun]
    rfl
  · rw [opSelect_of_ne (s := s.beat) hne, encodeStep_of_run_ne_zero (s := s.beat) hrun]
    rfl
  · rw [opSelect_of_repeat (s := s.beat) heq, repeatStep_of_due (s := s.beat) hdue]
    rfl
  · rw [opSelect_of_repeat (s := s.beat) heq, repeatStep_of_not_due (s := s.beat) hmax hlast]
    rfl

/-! ### START -/

/-- R104: an offered START outside RUNNING is taken. -/
theorem step_of_start (hrst : s.ports.rst = false) (hstart : s.ports.start = true) (hphase : s.phase ≠ .running) :
    step s = .next (start s.ports.cfg s.beat) := by
  obtain ⟨-, htaken, -⟩ := oneCommandIsTakenPerStep s
  exact htaken hrst hstart hphase

theorem start_of_valid {a : StartArgs} (hphase : s.phase ≠ .running) (ha : validate a = .none) :
    start a s = ((s.latch a).clearOut).beginEncode a := by
  rcases start_cases a s hphase with ⟨-, e⟩ | ⟨hbad, -⟩
  · exact e
  · exact absurd ha hbad

theorem start_of_invalid {a : StartArgs} (hphase : s.phase ≠ .running) (ha : validate a ≠ .none) :
    start a s = ((s.latch a).clearOut).raiseError (validate a) := by
  rcases start_cases a s hphase with ⟨hgood, -⟩ | ⟨-, e⟩
  · exact absurd hgood ha
  · exact e

/-- Settles O27: the hypotheses are the checks of R106, and `beginEncode` writes every field. -/
theorem validStartBeginsAnEncode : Obligations.ValidStartBeginsAnEncode := by
  rintro s w h ch cs len hdr hrst hstart hcfg hphase hw hh hceiling hch hcs hlen rfl
  have hvalid : validate ⟨w, h, ch, cs, len⟩ = .none :=
    (validate_none_iff _).2 ⟨⟨hw, hh, hceiling⟩, ⟨hch, hcs⟩, hlen⟩
  refine ⟨_, step_of_start hrst hstart hphase, ?_⟩
  rw [hcfg, start_of_valid (s := s.beat) hphase hvalid]
  rfl

/-- R203: the dimensions are checked first. -/
theorem validate_of_bad_dimensions {a : StartArgs}
    (h : a.width = 0 ∨ a.height = 0 ∨ 400000000 ≤ a.width.toNat * a.height.toNat) :
    validate a = .invalidDimensions := by
  rw [validate_eq, if_pos h]

/-- R206: when the dimensions pass, the format and then the length decide. -/
theorem validate_of_good_dimensions {a : StartArgs}
    (hdim : a.width ≠ 0 ∧ a.height ≠ 0 ∧ a.width.toNat * a.height.toNat < 400000000) :
    validate a =
      if (a.channels ≠ 3 ∧ a.channels ≠ 4) ∨ (a.colorspace ≠ 0 ∧ a.colorspace ≠ 1) then .invalidFormat
      else if a.inLen.toNat ≠ a.width.toNat * a.height.toNat * a.channels.toNat then .malformedLength
      else .none := by
  obtain ⟨hw, hh, hceiling⟩ := hdim
  rw [validate_eq, if_neg]
  rintro (h | h | h)
  · exact hw h
  · exact hh h
  · exact absurd hceiling h.not_gt

/-- A START with the error `code` raises it, and writes nothing but the latches and the emptied history besides (R105, R202). -/
theorem start_error_architectural {a : StartArgs} {code : ErrCode} (hphase : s.phase ≠ .running)
    (ha : validate a = code) (hcode : code ≠ .none) :
    (start a s).architectural = { s.architectural with
      phase := .error, errCode := code, cfgWidth := a.width, cfgHeight := a.height, cfgChannels := a.channels
      cfgColorspace := a.colorspace, cfgInLen := a.inLen, out := [], outCount := 0 } := by
  rw [start_of_invalid hphase (ha ▸ hcode), ha]
  rfl

/-- Settles O28, check by check in the order of R206. -/
theorem failedStartReportsTheFirstError : Obligations.FailedStartReportsTheFirstError := by
  intro s w h ch cs len code hrst hstart hcfg hphase hfail
  refine ⟨_, step_of_start hrst hstart hphase, ?_⟩
  rw [hcfg]
  rcases hfail with ⟨hdim, rfl⟩ | ⟨hdim, hformat, rfl⟩ | ⟨hdim, hformat, hlen, rfl⟩ <;>
    refine start_error_architectural (s := s.beat) hphase ?_ nofun
  · exact validate_of_bad_dimensions hdim
  · rw [validate_of_good_dimensions hdim, if_pos hformat]
  · rw [validate_of_good_dimensions hdim, if_neg (by tauto), if_pos hlen]

/-! ### The encode of an image that is not valid -/

/-- R106: what START accepts of a buffer whose length fits the port is a valid image. -/
theorem validImage_of_validate {w h : Word} {ch cs : Byte} {buf : List Byte} (hfits : buf.length < 2 ^ 64)
    (ha : validate ⟨w, h, ch, cs, BitVec.ofNat 64 buf.length⟩ = .none) : ValidImage w h ch cs buf := by
  obtain ⟨⟨hw, hh, hceiling⟩, ⟨hch, hcs⟩, hlen⟩ := (validate_none_iff _).1 ha
  exact ⟨hw, hh, hceiling, hch, hcs, (Nat.mod_eq_of_lt hfits).symm.trans hlen⟩

/-- R100: outside RUNNING no pixel is accepted, however many there are. -/
theorem pixels_not_running (ps : List Pixel) (h : s.phase ≠ .running) : pixels ps s = .next s := by
  induction ps with
  | nil => rfl
  | cons p ps ih => rw [pixels, pixel_not_running p s h, andThen_next, ih]

/-- Settles O43: START raises an error, and ERROR accepts no pixel. -/
theorem failedEncodeProducesNothing : Obligations.FailedEncodeProducesNothing := by
  intro w h ch cs buf s hfits hphase hinvalid
  have ha := mt (validImage_of_validate hfits) hinvalid
  refine ⟨_, pixels_not_running _ ?_, ?_⟩ <;> rw [start_of_invalid hphase ha]
  · exact nofun
  · exact ⟨rfl, ha, rfl, rfl, rfl, rfl, rfl, rfl⟩

end Sys2Proof.Machine
end

section
/-! PROOF. The op-selector step as the rows of the output multiplexer (41_op_selector.md rule R150), with at most six bytes, and
the PIXEL that they end in (40_control.md rules R112, R113). -/

namespace Sys2Proof.Machine

variable {s t : State} {p px : Pixel}

/-! ### The rows -/

/-- R142: the flush byte of rows 3 to 7 is the RUN op of the pending run. -/
theorem flushOps_bytes (hrun : s.run.toNat ≤ 61) : s.flushOps.flatMap encode = flushBytes s.run.toNat := by
  unfold State.flushOps flushBytes
  by_cases h : s.run = 0
  · rw [if_pos h, if_neg (by rw [h]; decide), List.flatMap_nil]
  · have hpos : 0 < s.run.toNat := Nat.pos_of_ne_zero fun e => h (BitVec.eq_of_toNat_eq e)
    rw [if_neg h, if_pos hpos, List.flatMap_singleton, encode_run ((wellFormed_run_iff _).2 ⟨hpos, by omega⟩)]
    rfl

/-- The bytes of the op chosen for a pixel, as rows 3 to 7 write them behind the flush. -/
theorem encode_chooseOp (px : Pixel) (s : State) :
    encode (chooseOp px s) =
      if s.cacheAt (hash6 px) = px then [BitVec.ofNat 8 (hash6 px).val]
      else if px.a ≠ s.prev.a then [0xFF, px.r, px.g, px.b, px.a]
      else if s.diffOk px then [diffByte (deltaRed px s.prev) (deltaGreen px s.prev) (deltaBlue px s.prev)]
      else if s.lumaOk px then lumaBytes (deltaGreen px s.prev) (relRed px s.prev) (relBlue px s.prev)
      else [0xFE, px.r, px.g, px.b] := by
  have hwf := chooseOp_wellFormed px s
  rcases chooseOp_cases px s with ⟨hhit, e⟩ | ⟨hmiss, ha, e⟩ | ⟨hmiss, ha, hdiff, e⟩ | ⟨hmiss, ha, hdiff, hluma, e⟩ |
    ⟨hmiss, ha, hdiff, hluma, e⟩ <;> rw [e] at hwf ⊢
  · rw [encode_index, if_pos hhit]
  · rw [if_neg hmiss, if_pos ha]
    rfl
  · obtain ⟨hr, hg, hb⟩ := (wellFormed_diff_iff _ _ _).1 hwf
    rw [encode_diff hr hg hb, if_neg hmiss, if_neg (not_not.2 ha), if_pos hdiff]
  · obtain ⟨hg, hr, hb⟩ := (wellFormed_luma_iff _ _ _).1 hwf
    rw [encode_luma hg hr hb, if_neg hmiss, if_neg (not_not.2 ha), hdiff, if_pos hluma]
    rfl
  · rw [if_neg hmiss, if_neg (not_not.2 ha), hdiff, hluma]
    rfl

/-- Row 1: a repeat that is due is the RUN op. -/
theorem muxBytes_of_due (hrun : s.run.toNat ≤ 61) (heq : px = s.prev)
    (hdue : s.run + 1 = 62 ∨ s.pos.toNat + 1 = s.total) : muxBytes px s = encode (.run (s.run + 1).toNat) := by
  have hsucc := run_succ_toNat hrun
  have hdue : s.run.toNat + 1 = 62 ∨ s.pos.toNat + 1 = s.total :=
    hdue.imp_left fun h => hsucc.symm.trans (congrArg BitVec.toNat h)
  rw [muxBytes, if_pos ⟨heq, hdue⟩, encode_run ((wellFormed_run_iff _).2 (by omega)), runByte, hsucc, Nat.add_sub_cancel]

/-- Row 2: any other repeat emits nothing. -/
theorem muxBytes_of_repeat (hrun : s.run.toNat ≤ 61) (heq : px = s.prev) (hmax : s.run + 1 ≠ 62)
    (hlast : s.pos.toNat + 1 ≠ s.total) : muxBytes px s = [] := by
  have hmax : s.run.toNat + 1 ≠ 62 := fun h => hmax (BitVec.eq_of_toNat_eq ((run_succ_toNat hrun).trans h))
  rw [muxBytes, if_neg fun h => h.2.elim hmax hlast, if_pos heq]

/-- Rows 3 to 7: any other pixel is a flush and its chosen op. -/
theorem muxBytes_of_ne (hrun : s.run.toNat ≤ 61) (hne : px ≠ s.prev) :
    muxBytes px s = s.flushOps.flatMap encode ++ encode (chooseOp px s) := by
  rw [muxBytes, if_neg fun h => hne h.1, if_neg hne, flushOps_bytes hrun, encode_chooseOp]
  simp only [apply_ite (flushBytes s.run.toNat ++ ·)]

/-- R150: the op-selector step emits its row. -/
theorem opSelect_emits_muxBytes (hrun : s.run.toNat ≤ 61) (h : opSelect p s = .next t) :
    s.Emits t (muxBytes (normalise s.cfgChannels p) s) := by
  rcases opSelect_cases p s with ⟨heq, hdue, e⟩ | ⟨heq, hmax, hlast, e⟩ | ⟨hne, -, e⟩ | ⟨hne, -, e⟩ <;>
    cases e.symm.trans h
  · rw [muxBytes_of_due hrun heq hdue]
    exact ⟨rfl, rfl⟩
  · rw [muxBytes_of_repeat hrun heq hmax hlast]
    exact State.emits_nothing rfl rfl
  · rw [muxBytes_of_ne hrun hne]
    exact s.flushed_emits.trans ⟨rfl, rfl⟩
  · rw [muxBytes_of_ne hrun hne]
    exact s.flushed_emits.trans ⟨rfl, rfl⟩

/-! ### At most six bytes -/

/-- R71: the longest op is RGBA. -/
theorem encode_length_le (i : Instr) : (encode i).length ≤ 5 := by
  cases i <;> simp [encode]

/-- R150: an op-selector step emits a RUN, nothing, or a flush and one op. -/
theorem opSelect_emits_le (h : opSelect p s = .next t) : ∃ bytes, s.Emits t bytes ∧ bytes.length ≤ 6 := by
  obtain ⟨bytes, hemits⟩ := opSelect_emits h
  obtain ⟨ops, hout, hops⟩ := opSelect_ops h
  obtain rfl : bytes = ops.flatMap encode := List.append_cancel_left (hemits.1.symm.trans hout)
  refine ⟨_, hemits, ?_⟩
  rcases hops with ⟨rfl, -⟩ | ⟨rfl, -⟩ | ⟨rfl, -⟩
  · exact (by decide : 1 ≤ 6)
  · exact Nat.zero_le 6
  · have hflush : s.owed ≤ 1 := by unfold State.owed; split <;> decide
    have hop := encode_length_le (chooseOp (normalise s.cfgChannels p) s)
    rw [List.flatMap_append, List.length_append, s.flushOps_length, List.flatMap_singleton]
    omega

theorem muxBytes_length_le (hrun : s.run.toNat ≤ 61) (p : Pixel) :
    (muxBytes (normalise s.cfgChannels p) s).length ≤ 6 := by
  obtain ⟨t, h⟩ := opSelect_answers p s
  obtain ⟨hout, -⟩ := opSelect_emits_muxBytes hrun h
  obtain ⟨bytes, ⟨hout', -⟩, hle⟩ := opSelect_emits_le h
  rwa [List.append_cancel_left (hout.symm.trans hout')]

/-! ### PIXEL -/

/-- Settles O29: the row is that of the op-selector step, and the end of the PIXEL is decided by `pos + 1`, which does not
wrap. -/
theorem pixelEmitsItsRowAndTheLastTheTerminator : Obligations.PixelEmitsItsRowAndTheLastTheTerminator := by
  rintro p px s rfl
  refine ⟨pixel_not_running p s, fun hi hphase => ?_⟩
  obtain ⟨u, hu, hpixel⟩ := pixel_running p s hphase
  obtain ⟨hphase', -, hlat, hpos⟩ := opSelect_frame hu
  obtain ⟨hout, -⟩ := opSelect_emits_muxBytes hi.run_le hu
  have hsucc := hi.pos_succ hphase
  have htotal := State.total_congr hlat
  refine ⟨u, _, hu, hpixel, hsucc, muxBytes_length_le hi.run_le p, hout,
    fun hlast => ⟨opSelect_run_of_last hlast hu, ?_⟩, fun hmore => ?_⟩ <;>
    rcases finishPixel_cases u with ⟨hend, e⟩ | ⟨hend, e⟩ <;> rw [hpos, htotal, hsucc] at hend
  · rw [e, ← hpos, ← hout]
    rfl
  · exact absurd hlast hend
  · exact absurd hend hmore
  · rw [e, ← hpos, ← hphase, ← hphase']
    rfl

/-! ### The alpha lane -/

/-- R133: a PIXEL sees its pixel normalised. -/
theorem pixel_congr {q : Pixel} (h : normalise s.cfgChannels p = normalise s.cfgChannels q) : pixel p s = pixel q s := by
  unfold pixel opSelect
  rw [h]

/-- R152: every op-selector step leaves its pixel in `prev`. -/
theorem opSelect_prev (h : opSelect p s = .next t) : t.prev = normalise s.cfgChannels p := by
  rcases opSelect_cases p s with ⟨heq, -, e⟩ | ⟨heq, -, -, e⟩ | ⟨-, -, e⟩ | ⟨-, -, e⟩ <;> cases e.symm.trans h
  · exact heq.symm
  · exact heq.symm
  · rfl
  · rfl

@[simp] theorem State.finishPixel_prev (s : State) : s.finishPixel.prev = s.prev := by
  rcases finishPixel_cases s with ⟨-, e⟩ | ⟨-, e⟩ <;> rw [e] <;> rfl

/-- Settles O21: in 3-channel mode the normalised pixel has the alpha 255, whatever the lane (R133). -/
theorem alphaLaneIsIgnoredForThreeChannels : Obligations.AlphaLaneIsIgnoredForThreeChannels := by
  intro r g b a a' s hphase hch
  have hnorm (x : Byte) : normalise s.cfgChannels ⟨r, g, b, x⟩ = ⟨r, g, b, 255⟩ := if_pos hch
  obtain ⟨u, hu, hpixel⟩ := pixel_running ⟨r, g, b, a⟩ s hphase
  exact ⟨pixel_congr ((hnorm a).trans (hnorm a').symm), _, hpixel,
    u.finishPixel_prev.trans ((opSelect_prev hu).trans (hnorm a))⟩

end Sys2Proof.Machine
end

section
/-! PROOF. The colour space (40_control.md rule R119): no part of a PIXEL reads it, and START writes it to the header's last
byte. -/

namespace Sys2Proof.Machine

/-- `f` neither reads nor writes the colour-space latch. -/
def IgnoresColorspace (f : State → Result) : Prop :=
  ∀ (s : State) (c : Byte), f { s with cfgColorspace := c } = andThen (f s) fun t => .next { t with cfgColorspace := c }

theorem IgnoresColorspace.andThen {f g : State → Result} (hf : IgnoresColorspace f) (hg : IgnoresColorspace g) :
    IgnoresColorspace fun s => andThen (f s) g := by
  intro s c
  show Machine.andThen (f _) g = Machine.andThen (Machine.andThen (f s) g) _
  rw [hf]
  cases f s with
  | next t => exact hg t c
  | fault r => rfl
  | refused r => rfl

/-- A branch on other fields. -/
theorem IgnoresColorspace.ite {b : State → Prop} [∀ s, Decidable (b s)] {f g : State → Result}
    (hb : ∀ (s : State) (c : Byte), b { s with cfgColorspace := c } ↔ b s) (hf : IgnoresColorspace f)
    (hg : IgnoresColorspace g) : IgnoresColorspace fun s => if b s then f s else g s := by
  intro s c
  by_cases h : b s
  · simp only [if_pos h, if_pos ((hb s c).2 h), hf s c]
  · simp only [if_neg h, if_neg (mt (hb s c).1 h), hg s c]

theorem exec_ignoresColorspace (i : Instr) : IgnoresColorspace (exec i) := by
  intro s c
  cases i <;> rfl

theorem flush_ignoresColorspace : IgnoresColorspace flush :=
  .ite (fun _ _ => Iff.rfl) (fun _ _ => rfl) fun s => exec_ignoresColorspace (.run s.run.toNat) s

theorem repeatStep_ignoresColorspace : IgnoresColorspace repeatStep :=
  .ite (fun _ _ => Iff.rfl) (fun s => exec_ignoresColorspace (.run s.accumulate.run.toNat) s.accumulate) fun _ _ => rfl

theorem encodeStep_ignoresColorspace (px : Pixel) : IgnoresColorspace (encodeStep px) :=
  flush_ignoresColorspace.andThen fun s => exec_ignoresColorspace (chooseOp px s) s

theorem opSelect_ignoresColorspace (p : Pixel) : IgnoresColorspace (opSelect p) :=
  .ite (fun _ _ => Iff.rfl) repeatStep_ignoresColorspace fun s =>
    encodeStep_ignoresColorspace (normalise s.cfgChannels p) s

theorem finishPixel_ignoresColorspace : IgnoresColorspace fun s => .next s.finishPixel := by
  simp only [State.finishPixel, apply_ite Host.Outcome.next]
  exact .ite (fun _ _ => Iff.rfl) (fun _ _ => rfl) fun _ _ => rfl

theorem pixel_ignoresColorspace (p : Pixel) : IgnoresColorspace (pixel p) :=
  .ite (fun _ _ => Iff.rfl) ((opSelect_ignoresColorspace p).andThen finishPixel_ignoresColorspace) fun _ _ => rfl

/-- Settles O34: PIXEL ignores the latch, and both STARTs begin an encode with headers that differ in their last byte. -/
theorem colorspaceReachesOnlyHeaderByte13 : Obligations.ColorspaceReachesOnlyHeaderByte13 := by
  refine ⟨fun p s t c h => ?_, fun a s hphase ha => ?_⟩
  · rw [pixel_ignoresColorspace p s c, h, andThen_next]
  · have ha' : validate { a with colorspace := 1 } = .none := by
      obtain ⟨hdim, ⟨hch, -⟩, hlen⟩ := (validate_none_iff _).1 ha
      exact (validate_none_iff _).2 ⟨hdim, ⟨hch, .inr rfl⟩, hlen⟩
    rw [start_of_valid hphase ha, start_of_valid hphase ha']
    rfl

end Sys2Proof.Machine
end

section
/-! PROOF. The encode at the ports (40_control.md rules R102, R229, R235). A PIXEL emits at most 14 bytes, six of its ops and eight
of the terminator, so 14 beats after it drain them; and what the rules speak of does not depend on the ports. So a host that
offers pixels and drains runs the bare command sequence, in every phase. -/

namespace Sys2Proof.Machine

variable {s t : State} {p : Pixel} {rest : List Ports}

/-! ### What a PIXEL does to the ports -/

theorem State.finishPixel_emits_le (s : State) : ∃ bytes, s.Emits s.finishPixel bytes ∧ bytes.length ≤ 8 := by
  rcases finishPixel_cases s with ⟨-, e⟩ | ⟨-, e⟩ <;> rw [e]
  · exact ⟨Config.terminator, ⟨rfl, rfl⟩, le_refl 8⟩
  · exact ⟨[], State.emits_nothing rfl rfl, Nat.zero_le 8⟩

/-- R229: the bytes of one PIXEL are at most 14. -/
theorem pixel_emits_le (h : pixel p s = .next t) : ∃ bytes, s.Emits t bytes ∧ bytes.length ≤ 14 := by
  rcases pixel_cases h with ⟨-, rfl⟩ | ⟨-, u, hu, rfl⟩
  · exact ⟨[], State.emits_nothing rfl rfl, Nat.zero_le 14⟩
  · obtain ⟨bytes, hbytes, hle⟩ := opSelect_emits_le hu
    obtain ⟨bytes', hbytes', hle'⟩ := u.finishPixel_emits_le
    exact ⟨_, hbytes.trans hbytes', by rw [List.length_append]; omega⟩

@[simp] theorem State.flushed_inputs (s : State) : s.flushed.inputs = s.inputs := by rw [flushed_eq]; rfl

theorem opSelect_inputs (h : opSelect p s = .next t) : t.inputs = s.inputs := by
  rcases opSelect_cases p s with ⟨-, -, e⟩ | ⟨-, -, -, e⟩ | ⟨-, -, e⟩ | ⟨-, -, e⟩ <;> cases e.symm.trans h
  · rfl
  · rfl
  · exact s.flushed_inputs
  · exact s.flushed_inputs

/-- What the host will drive is no state of the block. -/
theorem pixel_inputs (h : pixel p s = .next t) : t.inputs = s.inputs := by
  rcases pixel_cases h with ⟨-, rfl⟩ | ⟨-, u, hu, rfl⟩
  · rfl
  · rw [← opSelect_inputs hu]
    rcases finishPixel_cases u with ⟨-, e⟩ | ⟨-, e⟩ <;> rw [e] <;> rfl

/-! ### Runs of steps -/

/-- `k + n` steps are `k` steps and then `n`. -/
theorem run_add {M : Host.Core} (k n : Nat) {s t : M.State} (h : M.run k s = .next t) :
    M.run (k + n) s = M.run n t := by
  induction k generalizing s with
  | zero =>
    cases h
    rw [Nat.zero_add]
  | succ k ih =>
    rw [Nat.succ_add, Host.Core.run]
    rw [Host.Core.run] at h
    cases hs : M.step s with
    | next u =>
      rw [hs] at h
      exact ih h
    | fault r => rw [hs] at h; cases h
    | refused r => rw [hs] at h; cases h

theorem run_one {M : Host.Core} {s t : M.State} (h : M.step s = .next t) : M.run 1 s = .next t := by
  rw [Host.Core.run, h]
  rfl

/-- The host takes a byte and asserts nothing else: the levels of the beats in `offerAndDrain`. -/
def Ports.taking : Ports := { Ports.quiet with outReady := true }

theorem offerAndDrain_eq (p : Pixel) : offerAndDrain p = Ports.offer p :: List.replicate 14 Ports.taking := rfl

theorem step_taking (h : s.inputs = Ports.taking :: rest) :
    step s = .next { s with outPending := s.outPending.drop 1, inputs := rest } := by
  have hports : s.ports = Ports.taking := by rw [State.ports, h]; rfl
  rw [commandsNotAcceptedDoNothing s (by rw [hports]; rfl) (.inl (by rw [hports]; rfl)) (.inl (by rw [hports]; rfl)),
    hports, h]
  rfl

/-- R55, R59: on `n` such beats the host takes the `n` oldest waiting bytes. -/
theorem run_taking (n : Nat) (h : s.inputs = List.replicate n Ports.taking ++ rest) :
    Host.Core.run core n s = .next { s with outPending := s.outPending.drop n, inputs := rest } := by
  induction n generalizing s with
  | zero =>
    obtain rfl : s.inputs = rest := h
    rfl
  | succ n ih =>
    rw [Nat.add_comm n 1, run_add 1 n (run_one (M := core) (step_taking h))]
    refine (ih rfl).trans ?_
    rw [List.drop_drop]

/-! ### A host that offers pixels and drains -/

/-- In RUNNING the offered pixel is taken; outside RUNNING it is not, and PIXEL does nothing. -/
theorem step_eq_pixel_of_offer (hwait : s.outPending = []) (hin : s.inputs = Ports.offer p :: rest) :
    step s = pixel p s.beat := by
  by_cases hphase : s.phase = .running
  · exact (step_of_offer hphase hwait hin).trans (pixel_of_running (s := s.beat) hphase).symm
  · have hports : s.ports = Ports.offer p := by rw [State.ports, hin]; rfl
    rw [pixel_not_running p s.beat hphase]
    rcases step_cases s with ⟨h, -⟩ | ⟨-, h, -⟩ | ⟨-, h, -⟩ | ⟨-, -, -, e⟩
    · rw [hports] at h; cases h
    · rw [hports] at h; cases h
    · exact absurd h hphase
    · exact e

/-- One pixel offered and drained is one PIXEL, with no byte left waiting. -/
theorem run_offerAndDrain (hwait : s.outPending = []) (hin : s.inputs = offerAndDrain p ++ rest)
    (h : pixel p s = .next t) :
    ∃ u, Host.Core.run core 15 s = .next u ∧ u.architectural = t.architectural ∧ u.outPending = [] ∧
      u.inputs = rest := by
  obtain ⟨v, hv⟩ := pixel_answers p s.beat
  have hsame : v.architectural = t.architectural := by
    have hports := (pixel_ignoresPorts p s.beat).symm.trans (pixel_ignoresPorts p s)
    rw [hv, h] at hports
    exact Host.Outcome.next.inj hports
  have hnone : s.beat.outPending = [] := by rw [State.beat_outPending, hwait, List.tail_nil, ite_self]
  obtain ⟨bytes, ⟨-, hbytes⟩, hle⟩ := pixel_emits_le hv
  have hdrained : v.outPending.drop 14 = [] := by
    rw [hbytes, hnone, List.nil_append]
    exact List.drop_eq_nil_of_le hle
  have hinputs : v.inputs = List.replicate 14 Ports.taking ++ rest := by
    rw [pixel_inputs hv, State.beat_inputs, hin, offerAndDrain_eq, List.cons_append, List.tail_cons]
  have htaken : step s = .next v := (step_eq_pixel_of_offer hwait hin).trans hv
  exact ⟨_, (run_add 1 14 (run_one (M := core) htaken)).trans (run_taking 14 hinputs), hsame, hdrained, rfl⟩

/-- R102, R235: pixels offered and drained one after another are the bare command sequence. -/
theorem run_offered_pixels (ps : List Pixel) (hwait : s.outPending = [])
    (hin : s.inputs = ps.flatMap offerAndDrain ++ rest) :
    ∃ t u, Host.Core.run core (15 * ps.length) s = .next t ∧ pixels ps s = .next u ∧
      u.architectural = t.architectural ∧ t.outPending = [] ∧ t.inputs = rest := by
  induction ps generalizing s with
  | nil => exact ⟨s, s, rfl, rfl, rfl, hwait, hin⟩
  | cons p ps ih =>
    rw [List.flatMap_cons, List.append_assoc] at hin
    obtain ⟨v, hv⟩ := pixel_answers p s
    obtain ⟨s', hrun, hsame, hwait', hin'⟩ := run_offerAndDrain hwait hin hv
    obtain ⟨t, u', hrun', hpixels, harch, hend⟩ := ih hwait' hin'
    obtain ⟨u, hu, harch'⟩ := pixels_architectural_congr ps hsame.symm hpixels
    refine ⟨t, u, ?_, ?_, harch'.trans harch, hend⟩
    · rw [List.length_cons, Nat.mul_succ, Nat.add_comm, run_add 15 _ hrun, hrun']
    · rw [pixels, hv, andThen_next, hu]

/-- Settles O50: the bare command sequence completes the image, and the run at the ports has its phase and its stream. -/
theorem blockReachesDoneAtThePorts : Obligations.BlockReachesDoneAtThePorts := by
  intro ps rest s hi hphase hwait hin hlen
  obtain ⟨t, u, hrun, hpixels, hsame, hdrained, hinputs⟩ := run_offered_pixels ps hwait hin
  obtain ⟨u', ops, hu', hdone⟩ := pixels_complete ps hi hphase hlen
  cases hu'.symm.trans hpixels
  exact ⟨t, u, hrun, hpixels, (congrArg State.phase hsame).symm.trans hdone.phase, hdrained, hinputs,
    (congrArg State.out hsame).symm⟩

end Sys2Proof.Machine
end

section
/-! PROOF. The datapath (41_op_selector.md rules R130 to R136): the colour hash in 6-bit wrap-around arithmetic, the widths of the
exact quantities, and the two range predicates over the exact deltas. -/

namespace Sys2Proof

/-! ### The widths -/

/-- R131: reduction to 6 bits commutes with the sums and products of R130. -/
theorem sixBitSum_eq (p : Pixel) :
    (3 * p.r.setWidth 6 + 5 * p.g.setWidth 6 + 7 * p.b.setWidth 6 + 11 * p.a.setWidth 6 : BitVec 6) =
      BitVec.ofNat 6 (hashSum p) := by
  simp only [hashSum, BitVec.ofNat_add, BitVec.ofNat_mul, BitVec.ofNat_toNat]
  rfl

/-- R131: each channel is at most 255, and the weights add up to 26. -/
theorem hashSum_le (p : Pixel) : hashSum p ≤ 6630 := by
  have hr := p.r.isLt
  have hg := p.g.isLt
  have hb := p.b.isLt
  have ha := p.a.isLt
  unfold hashSum
  omega

/-- R131, R134: a delta is a signed 9-bit number. -/
theorem delta_bounds (new old : Byte) : -255 ≤ delta new old ∧ delta new old ≤ 255 := by
  have hnew := new.isLt
  have hold := old.isLt
  unfold delta
  omega

/-- Settles O7: the slot is the exact sum reduced to 6 bits, and a green-relative delta is the difference of two deltas. -/
theorem datapathWidthsSuffice : Obligations.DatapathWidthsSuffice := by
  intro p q
  have hred : -255 ≤ deltaRed p q ∧ deltaRed p q ≤ 255 := delta_bounds p.r q.r
  have hgreen : -255 ≤ deltaGreen p q ∧ deltaGreen p q ≤ 255 := delta_bounds p.g q.g
  have hblue : -255 ≤ deltaBlue p q ∧ deltaBlue p q ≤ 255 := delta_bounds p.b q.b
  refine ⟨?_, hashSum_le p, hred, hgreen, hblue, ?_, ?_⟩
  · rw [sixBitSum_eq, BitVec.toNat_ofNat]
    rfl
  · unfold relRed
    omega
  · unfold relBlue
    omega

namespace Machine

/-! ### The range predicates -/

/-- R136: `diff_ok`, both bounds included. -/
theorem State.diffOk_iff (s : State) (px : Pixel) : s.diffOk px = true ↔
    (-2 ≤ deltaRed px s.prev ∧ deltaRed px s.prev ≤ 1) ∧ (-2 ≤ deltaGreen px s.prev ∧ deltaGreen px s.prev ≤ 1) ∧
      (-2 ≤ deltaBlue px s.prev ∧ deltaBlue px s.prev ≤ 1) := by
  simp [State.diffOk, and_assoc]

/-- R136: `luma_ok`, both bounds included. -/
theorem State.lumaOk_iff (s : State) (px : Pixel) : s.lumaOk px = true ↔
    (-32 ≤ deltaGreen px s.prev ∧ deltaGreen px s.prev ≤ 31) ∧ (-8 ≤ relRed px s.prev ∧ relRed px s.prev ≤ 7) ∧
      (-8 ≤ relBlue px s.prev ∧ relBlue px s.prev ≤ 7) := by
  simp [State.lumaOk, and_assoc]

/-- Settles O8: two numbers in [-2, 1] differ by at most 3. -/
theorem rangePredicatesNest : Obligations.RangePredicatesNest := by
  rintro s px dr dg db rfl rfl rfl
  refine ⟨⟨rfl, rfl, rfl, rfl, rfl⟩, s.diffOk_iff px, s.lumaOk_iff px, fun hdiff => ?_⟩
  obtain ⟨hr, hg, hb⟩ := (s.diffOk_iff px).1 hdiff
  have hrel : (-3 ≤ relRed px s.prev ∧ relRed px s.prev ≤ 3) ∧ (-3 ≤ relBlue px s.prev ∧ relBlue px s.prev ≤ 3) := by
    unfold relRed relBlue
    omega
  exact ⟨(s.lumaOk_iff px).2 (by omega), hrel⟩

end Machine

end Sys2Proof
end

section
/-! PROOF. The op selector as the rules write it (41_op_selector.md): the op chosen is the one whose rule is reached (R144, R146
to R149); the op-selector step is the pseudocode of R151; and no step of the block stops (R155, R207). -/

namespace Sys2Proof.Machine

variable {s t : State} {p px : Pixel}

/-! ### The op that is reached -/

/-- The conditions under which an op is chosen are those of its own rule. -/
theorem reaches_chooseOp (px : Pixel) (s : State) : Reaches px s (chooseOp px s) := by
  rcases chooseOp_cases px s with ⟨hhit, e⟩ | ⟨hmiss, ha, e⟩ | ⟨hmiss, ha, hdiff, e⟩ | ⟨hmiss, ha, hdiff, hluma, e⟩ |
    ⟨hmiss, ha, hdiff, hluma, e⟩ <;> rw [e]
  · exact ⟨hhit, rfl⟩
  · exact ⟨hmiss, ha, rfl⟩
  · exact ⟨hmiss, ha, hdiff, rfl, rfl, rfl⟩
  · exact ⟨hmiss, ha, hdiff, hluma, rfl, rfl, rfl⟩
  · exact ⟨hmiss, ha, hdiff, hluma, rfl, rfl, rfl⟩

/-- An op whose rule is reached is the one chosen; the rules exclude each other. -/
theorem chooseOp_of_reaches {i : Instr} (h : Reaches px s i) : chooseOp px s = i := by
  cases i with
  | index slot =>
    obtain ⟨hhit, rfl⟩ := h
    exact chooseOp_of_hit hhit
  | diff dr dg db =>
    obtain ⟨hmiss, ha, hdiff, rfl, rfl, rfl⟩ := h
    exact chooseOp_of_diffOk hmiss ha hdiff
  | luma dg drg dbg =>
    obtain ⟨hmiss, ha, hdiff, hluma, rfl, rfl, rfl⟩ := h
    exact chooseOp_of_lumaOk hmiss ha hdiff hluma
  | run n => exact h.elim
  | rgb r g b =>
    obtain ⟨hmiss, ha, hdiff, hluma, rfl, rfl, rfl⟩ := h
    exact chooseOp_of_neither hmiss ha hdiff hluma
  | rgba r g b a =>
    obtain ⟨hmiss, ha, rfl⟩ := h
    exact chooseOp_of_alpha hmiss ha

/-- Settles O18; the equivalence needs no premise on `prev`, which the selector tests before it chooses. -/
theorem chosenOpIsTheOneReached : Obligations.ChosenOpIsTheOneReached :=
  fun px s _ _ => ⟨fun h => h ▸ reaches_chooseOp px s, chooseOp_of_reaches⟩

/-! ### The op-selector step -/

theorem State.emit_nil (s : State) : s.emit [] = s := by
  simp [State.emit]

theorem State.emit_emit (s : State) (bytes bytes' : List Byte) :
    (s.emit bytes).emit bytes' = s.emit (bytes ++ bytes') := by
  simp [State.emit, BitVec.ofNat_add, BitVec.add_assoc]

/-- R142: a flush and then an op's bytes are emitted as one sequence. -/
theorem State.flushed_emit (s : State) (bytes : List Byte) :
    s.flushed.emit bytes = (s.emit (s.flushOps.flatMap encode ++ bytes)).setRun 0 := by
  rw [State.flushed_eq, ← State.emit_emit]
  rfl

/-- R145: the cache write of a miss and the op's bytes do not meet, so their order does not matter. -/
theorem State.encodeMissed_eq (s : State) (px : Pixel) (i : Instr) :
    s.encodeMissed px i = ((s.emit (encode i)).cacheWrite (hash6 px) px).setPrev px := rfl

/-- R36 item 1: the comparison `run + 1 = 62` is one of exact numbers. -/
theorem run_succ_eq_62_iff {r : BitVec 6} (h : r.toNat ≤ 61) : r + 1 = 62 ↔ r.toNat + 1 = 62 := by
  rw [← run_succ_toNat h]
  exact ⟨congrArg BitVec.toNat, fun e => BitVec.eq_of_toNat_eq e⟩

/-- R151: what the op-selector step writes. -/
theorem opSelect_writes (hpx : px = normalise s.cfgChannels p) (hrun : s.run.toNat ≤ 61) (h : opSelect p s = .next t) :
    t.architectural = { s.architectural with
      out := s.out ++ muxBytes px s
      outCount := s.outCount + BitVec.ofNat 32 (muxBytes px s).length
      run := if px = s.prev ∧ s.run.toNat + 1 ≠ 62 ∧ s.pos.toNat + 1 ≠ s.total then s.run + 1 else 0
      prev := px
      cache := if px = s.prev ∨ s.cacheAt (hash6 px) = px then s.cache else s.cache.set (hash6 px).val px } := by
  subst hpx
  have hfull := run_succ_eq_62_iff hrun
  rcases opSelect_cases p s with ⟨heq, hdue, e⟩ | ⟨heq, hmax, hlast, e⟩ | ⟨hne, hhit, e⟩ | ⟨hne, hmiss, e⟩ <;>
    cases e.symm.trans h
  · have hflush : ¬ (s.run.toNat + 1 ≠ 62 ∧ s.pos.toNat + 1 ≠ s.total) :=
      fun ⟨hmax, hlast⟩ => hdue.elim (mt hfull.1 hmax) hlast
    rw [muxBytes_of_due hrun heq hdue, if_neg fun hkept => hflush hkept.2, if_pos (.inl heq), heq]
    rfl
  · rw [← s.accumulate.emit_nil, muxBytes_of_repeat hrun heq hmax hlast, if_pos ⟨heq, mt hfull.2 hmax, hlast⟩,
      if_pos (.inl heq), heq]
    rfl
  · rw [muxBytes_of_ne hrun hne, State.flushed_emit, if_neg fun hkept => hne hkept.1, if_pos (.inr hhit)]
    rfl
  · rw [muxBytes_of_ne hrun hne, State.encodeMissed_eq, State.flushed_emit, if_neg fun hkept => hne hkept.1,
      if_neg (not_or.2 ⟨hne, hmiss⟩)]
    rfl

/-- Settles O19: the pixel of the pseudocode is the normalised one (R133). -/
theorem selectorStepFollowsThePseudocode : Obligations.SelectorStepFollowsThePseudocode := by
  intro p px s hpx hrun
  have hpx : px = normalise s.cfgChannels p := hpx
  obtain ⟨t, h⟩ := opSelect_answers p s
  exact ⟨hpx ▸ muxBytes_length_le hrun p, t, h, opSelect_writes hpx hrun h⟩

/-! ### Every step answers -/

/-- Settles O30: a step is a RESET, a START, a PIXEL or the output handshake, and each of them answers. -/
theorem everyStepHasANextState : Obligations.EveryStepHasANextState := by
  intro s
  rcases step_cases s with ⟨-, e⟩ | ⟨-, -, -, e⟩ | ⟨-, -, -, -, e⟩ | ⟨-, -, -, e⟩
  · exact ⟨_, e⟩
  · exact ⟨_, e⟩
  · rw [e]
    exact pixel_answers _ s.beat
  · exact ⟨_, e⟩

end Sys2Proof.Machine
end

section
/-! PROOF. Repeats of the previous pixel (41_op_selector.md rules R140 to R142, 42_terminator_and_sizing.md rule R178): they fill
RUN ops of 62, and the rest stays pending until another pixel or the end of the image flushes it. -/

namespace Sys2Proof.Machine

variable {s t u : State} {p : Pixel} {j k : Nat}

/-! ### Repeats before the last pixel -/

/-- `t` is what `s` becomes after `k` more repeats of its previous pixel, before the end of the image: of all repeats, those
pending in `s` among them, each 62 have been emitted as the byte FD and the rest is pending. -/
structure State.Repeated (s : State) (k : Nat) (t : State) : Prop where
  inv : t.Inv
  phase : t.phase = .running
  latched : t.latched = s.latched
  run : t.run.toNat = (s.run.toNat + k) % 62
  pos : t.pos.toNat = s.pos.toNat + k
  prev : t.prev = s.prev
  cache : t.cache = s.cache
  out : t.out = s.out ++ List.replicate ((s.run.toNat + k) / 62) 0xFD

theorem State.Inv.repeated_zero (hi : s.Inv) (hphase : s.phase = .running) : s.Repeated 0 s where
  inv := hi
  phase := hphase
  latched := rfl
  run := by have := hi.run_le; omega
  pos := rfl
  prev := rfl
  cache := rfl
  out := by
    have := hi.run_le
    rw [Nat.div_eq_of_lt (by omega)]
    exact (List.append_nil _).symm

/-- Repeats add up: what the first ones leave pending counts towards the next RUN of 62 (R141). -/
theorem State.Repeated.trans (h : s.Repeated j t) (h' : t.Repeated k u) : s.Repeated (j + k) u where
  inv := h'.inv
  phase := h'.phase
  latched := h'.latched.trans h.latched
  run := by have := h.run; have := h'.run; omega
  pos := by have := h.pos; have := h'.pos; omega
  prev := h'.prev.trans h.prev
  cache := h'.cache.trans h.cache
  out := by
    rw [h'.out, h.out, List.append_assoc, List.replicate_append_replicate, h.run]
    congr 2
    omega

/-- R140, R141: one repeat that is not the last pixel lengthens the run, or completes a RUN of 62. -/
theorem pixel_repeated (hi : s.Inv) (hphase : s.phase = .running) (hp : normalise s.cfgChannels p = s.prev)
    (hmore : s.pos.toNat + 1 < s.total) : ∃ t, pixel p s = .next t ∧ s.Repeated 1 t := by
  have hrun := hi.run_le
  have hpos := hi.pos_succ hphase
  have hend : (s.pos + 1).toNat ≠ s.total := by omega
  by_cases hfull : s.run + 1 = 62
  · have hcount := (run_succ_eq_62_iff hrun).1 hfull
    have e : pixel p s = .next (((s.setRun 62).emit (encode (.run 62))).setRun 0).advancePos := by
      rw [pixel_of_running hphase, opSelect_of_repeat hp, repeatStep_of_due (.inl hfull), exec_run, andThen_next, hfull]
      exact congrArg Host.Outcome.next (if_neg hend)
    exact ⟨_, e,
      { inv := hi.pixel e
        phase := hphase
        latched := rfl
        run := by rw [hcount]; rfl
        pos := hpos
        prev := rfl
        cache := rfl
        out := by rw [hcount]; rfl }⟩
  · have hlt : s.run.toNat + 1 < 62 := by
      have := mt (run_succ_eq_62_iff hrun).2 hfull
      omega
    have e : pixel p s = .next (s.setRun (s.run + 1)).advancePos := by
      rw [pixel_of_running hphase, opSelect_of_repeat hp, repeatStep_of_not_due hfull hmore.ne, andThen_next]
      exact congrArg Host.Outcome.next (if_neg hend)
    exact ⟨_, e,
      { inv := hi.pixel e
        phase := hphase
        latched := rfl
        run := by rw [Nat.mod_eq_of_lt hlt]; exact run_succ_toNat hrun
        pos := hpos
        prev := rfl
        cache := rfl
        out := by rw [Nat.div_eq_of_lt hlt]; exact (List.append_nil _).symm }⟩

/-- R178: `k` repeats before the end of the image, one after another. -/
theorem pixels_repeated (k : Nat) : ∀ {s : State}, s.Inv → s.phase = .running → normalise s.cfgChannels p = s.prev →
    s.pos.toNat + k < s.total → ∃ t, pixels (List.replicate k p) s = .next t ∧ s.Repeated k t := by
  induction k with
  | zero => exact fun {s} hi hphase _ _ => ⟨s, rfl, hi.repeated_zero hphase⟩
  | succ k ih =>
    intro s hi hphase hp hmore
    obtain ⟨u, hu, hone⟩ := pixel_repeated hi hphase hp (by omega)
    have hp' : normalise u.cfgChannels p = u.prev := by rw [State.cfgChannels_congr hone.latched, hone.prev, hp]
    have hmore' : u.pos.toNat + k < u.total := by rw [hone.pos, State.total_congr hone.latched]; omega
    obtain ⟨t, ht, hrest⟩ := ih hone.inv hone.phase hp' hmore'
    exact ⟨t, by rw [List.replicate_succ, pixels, hu, andThen_next, ht], Nat.add_comm k 1 ▸ hone.trans hrest⟩

/-! ### The pixel after them -/

/-- R112, R150: a PIXEL in RUNNING emits its row and, at the last pixel, the terminator, with no run left pending. -/
theorem pixel_emits_row (hi : s.Inv) (hphase : s.phase = .running) (p : Pixel) :
    ∃ t, pixel p s = .next t ∧
      t.out = s.out ++ muxBytes (normalise s.cfgChannels p) s ++
        (if s.pos.toNat + 1 = s.total then [0, 0, 0, 0, 0, 0, 0, 1] else []) ∧
      (s.pos.toNat + 1 = s.total → t.phase = .done ∧ t.run = 0) := by
  obtain ⟨-, hrunning⟩ := pixelEmitsItsRowAndTheLastTheTerminator p _ s rfl
  obtain ⟨u, t, -, hpixel, -, -, hout, hlast, hmore⟩ := hrunning hi hphase
  refine ⟨t, hpixel, ?_⟩
  by_cases hend : s.pos.toNat + 1 = s.total
  · obtain ⟨hrun, ht⟩ := hlast hend
    rw [if_pos hend]
    exact ⟨congrArg State.out ht, fun _ => ⟨congrArg State.phase ht, (congrArg State.run ht).trans hrun⟩⟩
  · rw [if_neg hend, List.append_nil]
    exact ⟨(congrArg State.out (hmore hend)).trans hout, fun h => absurd h hend⟩

/-- R142: the flush byte is the RUN byte of R143. -/
theorem flushBytes_eq (n : Nat) : flushBytes n = if n ≠ 0 then [runByte n] else [] := by
  simp only [flushBytes, Nat.pos_iff_ne_zero]
  rfl

/-- R142, R150: the row of another pixel is the RUN that is pending and the op it would have had before the repeats. -/
theorem State.Repeated.muxBytes_of_ne {px : Pixel} (h : s.Repeated k t) (hne : px ≠ s.prev) :
    muxBytes px t =
      (if (s.run.toNat + k) % 62 ≠ 0 then [runByte ((s.run.toNat + k) % 62)] else []) ++ encode (chooseOp px s) := by
  rw [Machine.muxBytes_of_ne h.inv.run_le (h.prev ▸ hne), flushOps_bytes h.inv.run_le, flushBytes_eq, h.run,
    chooseOp_congr px h.prev h.cache]

/-- R141, R150: the row of a repeat that is the last pixel is the RUN of the pending repeats and itself. -/
theorem State.Repeated.muxBytes_of_last (h : s.Repeated k t) (hlast : t.pos.toNat + 1 = t.total) :
    muxBytes s.prev t = [runByte ((s.run.toNat + k) % 62 + 1)] := by
  rw [muxBytes, if_pos ⟨h.prev.symm, .inr hlast⟩, h.run]
  rfl

/-- R178: a RUN of the pending repeats and one more, which is a RUN of 62 or the rest. -/
theorem replicate_append_runByte (k : Nat) :
    List.replicate (k / 62) 0xFD ++ [runByte (k % 62 + 1)] =
      List.replicate ((k + 1) / 62) 0xFD ++ if (k + 1) % 62 ≠ 0 then [runByte ((k + 1) % 62)] else [] := by
  by_cases hfull : k % 62 = 61
  · have hdiv : (k + 1) / 62 = k / 62 + 1 := by omega
    have hmod : (k + 1) % 62 = 0 := by omega
    rw [hfull, hdiv, hmod, List.replicate_succ', if_neg (not_not.2 rfl), List.append_nil]
    rfl
  · have hdiv : (k + 1) / 62 = k / 62 := by omega
    have hmod : (k + 1) % 62 = k % 62 + 1 := by omega
    rw [hdiv, hmod, if_pos (Nat.succ_ne_zero _)]

/-- PIXELs one after another, split at any point. -/
theorem pixels_append (ps qs : List Pixel) (s : State) : pixels (ps ++ qs) s = andThen (pixels ps s) (pixels qs) := by
  induction ps generalizing s with
  | nil => rfl
  | cons p ps ih =>
    obtain ⟨u, hu⟩ := pixel_answers p s
    rw [List.cons_append, pixels, pixels, hu, andThen_next, andThen_next, ih]

/-- Settles O44: the repeats before the last pixel, and then the row of the pixel that ends the run. -/
theorem repeatsBecomeRunsOf62AndOneRest : Obligations.RepeatsBecomeRunsOf62AndOneRest := by
  intro k p q s hi hphase hrun hk hp
  have hzero (n : Nat) : s.run.toNat + n = n := by rw [hrun]; exact Nat.zero_add n
  refine ⟨fun hmore => ?_, fun hend => ?_⟩
  · obtain ⟨t, ht, h⟩ := pixels_repeated k hi hphase hp hmore
    obtain ⟨u, hu, hout, -⟩ := pixel_emits_row h.inv h.phase q
    refine ⟨t, ht, h.phase, hzero k ▸ h.run, h.pos, h.prev, h.cache, hzero k ▸ h.out, fun hq => ⟨u, hu, ?_⟩⟩
    rw [hout, State.cfgChannels_congr h.latched, h.muxBytes_of_ne hq, hzero, h.pos, State.total_congr h.latched]
    simp only [List.append_assoc]
  · obtain ⟨n, rfl⟩ := Nat.exists_eq_add_of_le' hk
    obtain ⟨t, ht, h⟩ := pixels_repeated n hi hphase hp (by omega)
    have hlast : t.pos.toNat + 1 = t.total := by rw [h.pos, State.total_congr h.latched]; exact hend
    obtain ⟨u, hu, hout, hdone⟩ := pixel_emits_row h.inv h.phase p
    obtain ⟨hphase', hrun'⟩ := hdone hlast
    refine ⟨u, ?_, hphase', hrun', ?_⟩
    · rw [List.replicate_succ', pixels_append, ht, andThen_next, pixels, hu]
      rfl
    · rw [hout, State.cfgChannels_congr h.latched, hp, h.muxBytes_of_last hlast, if_pos hlast, h.out, hzero,
        List.append_assoc s.out, replicate_append_runByte, ← List.append_assoc s.out]

end Sys2Proof.Machine
end

section
/-! PROOF. The size of a complete stream (42_terminator_and_sizing.md rules R172, R174, R176): the stream invariant bounds its
length, and the ceiling of R203 keeps that bound far below 2^32, so the 32-bit counter is exact. -/

namespace Sys2Proof.Machine

variable {s : State}

/-- R174: the worst case of R173 over all descriptions that START accepts. -/
theorem State.bound_le (ha : validate s.latched = .none) : s.bound ≤ 2000000017 := by
  obtain ⟨⟨-, -, hceiling⟩, ⟨hch, -⟩, -⟩ := (validate_none_iff _).1 ha
  have htotal : s.total ≤ 399999999 := Nat.le_of_lt_succ hceiling
  have hbytes : s.cfgChannels.toNat + 1 ≤ 5 := by
    rcases hch with h | h <;> exact (congrArg (fun c : Byte => c.toNat + 1) h).trans_le (by decide)
  exact Nat.add_le_add_right (Nat.mul_le_mul htotal hbytes) 22

/-- R28: `out_count` is the exact length of a stream that the counter can hold. -/
theorem State.StreamInv.outCount_toNat (h : s.StreamInv) (hlen : s.out.length < 2 ^ 32) :
    s.outCount.toNat = s.out.length := by
  rw [h.count, BitVec.toNat_ofNat, Nat.mod_eq_of_lt hlen]

/-- Settles O41: the bounds of the stream invariant in DONE, read from the exact counter. -/
theorem completeStreamSizeIsBounded : Obligations.CompleteStreamSizeIsBounded := by
  intro s hi hs hdone
  have hbound := hs.size_done hdone
  have hmax := State.bound_le (hi.legal_latches (.inr hdone))
  have hcount := hs.outCount_toNat (by omega)
  rw [hcount]
  exact ⟨rfl, hs.size_min hdone, hbound, hbound.trans hmax⟩

end Sys2Proof.Machine
end


section
/-! PROOF. The round trip (42_terminator_and_sizing.md rule R180, 45_decoder_contract.md rules R185 to R197). The decoder reads
the ops of a stream one after another, whichever ops they are. And from START to the last pixel the decoder that has read the
ops emitted so far has the encoder's cache and previous pixel, and has produced all pixels but those of the pending run. -/

namespace Sys2Proof.Machine

variable {s t : State} {p px : Pixel} {storeAll : Bool}

/-! ### Reading a stream -/

theorem Decoder.apply_pixels_length (d : Decoder) (i : Instr) :
    (d.apply storeAll i).pixels.length = d.pixels.length + pixelCount i := by
  unfold Decoder.apply
  split <;> simp [Decoder.produce, Decoder.store]

/-- The pixels of ops applied one after another add up. -/
theorem foldl_apply_pixels_length (ops : List Instr) : ∀ d : Decoder,
    (ops.foldl (Decoder.apply storeAll) d).pixels.length = d.pixels.length + (ops.map pixelCount).sum := by
  induction ops with
  | nil => exact fun _ => rfl
  | cons i ops ih =>
    intro d
    rw [List.foldl_cons, ih, Decoder.apply_pixels_length, List.map_cons, List.sum_cons, Nat.add_assoc]

/-- R82, R188: every op of the format stands for a pixel. -/
theorem pixelCount_pos {i : Instr} (hwf : i.wellFormed = true) : 0 < pixelCount i := by
  cases i with
  | run n => exact ((wellFormed_run_iff n).1 hwf).1
  | _ => exact Nat.one_pos

/-- R188: the loop applies the ops one by one and stops after those that stand for `total` pixels. -/
theorem decodeOps_flatMap_encode {total : Nat} (rest : List Byte) (ops : List Instr) : ∀ {fuel : Nat} {d : Decoder},
    (∀ i ∈ ops, i.wellFormed = true) → d.pixels.length + (ops.map pixelCount).sum = total →
    (ops.map pixelCount).sum ≤ fuel →
    decodeOps storeAll total fuel (ops.flatMap encode ++ rest) d = some (ops.foldl (Decoder.apply storeAll) d, rest) := by
  induction ops with
  | nil =>
    intro fuel d _ hcount _
    cases fuel <;> exact if_pos hcount.ge
  | cons i ops ih =>
    intro fuel d hwf hcount hfuel
    obtain ⟨hi, hops⟩ := List.forall_mem_cons.1 hwf
    have hpos := pixelCount_pos hi
    have hlen := d.apply_pixels_length (storeAll := storeAll) i
    rw [List.map_cons, List.sum_cons] at hcount hfuel
    obtain ⟨fuel, rfl⟩ := Nat.exists_eq_add_of_le' (hpos.trans_le ((Nat.le_add_right _ _).trans hfuel))
    rw [List.flatMap_cons, List.append_assoc, decodeOps, if_neg (by omega), decodeOfEncodeIsTheOp i _ hi]
    exact ih hops (by omega) (by omega)

/-- R57, R186: the decoder reads a word of the header back. -/
theorem wordOfBytes_lanes (w : Word) :
    wordOfBytes (w.extractLsb' 24 8) (w.extractLsb' 16 8) (w.extractLsb' 8 8) (w.extractLsb' 0 8) = w :=
  Pixel.pack_ofWord w

/-- R186: behind the header of `a`, the decoder reads the ops of the pixels that `a` describes. -/
theorem decodeStream_header {a : StartArgs} {bytes : List Byte} {d : Decoder}
    (h : decodeOps storeAll (a.width.toNat * a.height.toNat) (a.width.toNat * a.height.toNat) bytes Decoder.init =
      some (d, Config.terminator)) :
    decodeStream storeAll (header a ++ bytes) =
      some ⟨a.width, a.height, a.channels, a.colorspace, packBuffer a.channels d.pixels⟩ := by
  simp [header, bigEndian, Config.magic, decodeStream, wordOfBytes_lanes, h]

/-- R186 to R196: a stream of the format, whose ops stand for the pixels its header describes, decodes to them. -/
theorem decodeStream_ops {a : StartArgs} {ops : List Instr} {d : Decoder} (hwf : ∀ i ∈ ops, i.wellFormed = true)
    (hd : ops.foldl (Decoder.apply storeAll) Decoder.init = d)
    (hlen : d.pixels.length = a.width.toNat * a.height.toNat) :
    decodeStream storeAll (header a ++ ops.flatMap encode ++ Config.terminator) =
      some ⟨a.width, a.height, a.channels, a.colorspace, packBuffer a.channels d.pixels⟩ := by
  subst hd
  have hcount := foldl_apply_pixels_length (storeAll := storeAll) ops Decoder.init
  have hnone : Decoder.init.pixels.length = 0 := rfl
  rw [List.append_assoc]
  exact decodeStream_header (decodeOps_flatMap_encode _ ops hwf (by omega) (by omega))

/-! ### The decoder beside the encoder -/

/-- R191 to R194: the op chosen for `px` stands for `px`, if the decoder has the encoder's previous pixel and its cache holds
`px` where the encoder's does. -/
theorem pixelOf_chooseOp {d : Decoder} (hprev : d.prev = s.prev)
    (hhit : s.cacheAt (hash6 px) = px → d.cache[(hash6 px).val] = px) : d.pixelOf (chooseOp px s) = px := by
  rcases chooseOp_cases px s with ⟨h, e⟩ | ⟨-, -, e⟩ | ⟨-, ha, -, e⟩ | ⟨-, ha, -, -, e⟩ | ⟨-, ha, -, -, e⟩ <;> rw [e]
  · exact hhit h
  · rfl
  · rw [Decoder.pixelOf, hprev, Pixel.addDeltas_deltas px s.prev ha]
  · rw [Decoder.pixelOf, hprev, relRed_add, relBlue_add, Pixel.addDeltas_deltas px s.prev ha]
  · rw [Decoder.pixelOf, hprev, ← ha]

/-- R145, R189: the decoder stores after the ops of a cache miss. -/
theorem storesColour_chooseOp (px : Pixel) (s : State) :
    storesColour (chooseOp px s) = decide (s.cacheAt (hash6 px) ≠ px) := by
  rcases chooseOp_cases px s with ⟨h, e⟩ | ⟨h, -, e⟩ | ⟨h, -, -, e⟩ | ⟨h, -, -, -, e⟩ | ⟨h, -, -, -, e⟩ <;> rw [e] <;>
    simp [storesColour, h]

/-- R189: a decoder that has the encoder's previous pixel and cache has them again after the op chosen for `px`, and has
produced `px`. -/
theorem apply_chooseOp {produced : List Pixel} (h : exec (chooseOp px s) s = .next t) :
    Decoder.apply false ⟨s.prev, s.cache, produced⟩ (chooseOp px s) = ⟨t.prev, t.cache, produced ++ [px]⟩ := by
  rw [Decoder.apply, pixelOf_chooseOp (s := s) rfl id, storesColour_chooseOp, pixelCount_chooseOp]
  rcases exec_chooseOp px s with ⟨hhit, e⟩ | ⟨hmiss, e⟩ <;> cases e.symm.trans h
  · simp [hhit, Decoder.produce]
  · simp [hmiss, Decoder.produce, Decoder.store]

/-- The decoder that has read the ops since the header has the encoder's previous pixel and cache, and has produced the pixels
`seen` but for those of the pending run. -/
def State.Mirrored (seen : List Pixel) (s : State) : Prop :=
  ∃ (ops : List Instr) (produced : List Pixel), (∀ i ∈ ops, i.wellFormed = true) ∧
    s.out = header s.latched ++ ops.flatMap encode ∧
    ops.foldl (Decoder.apply false) Decoder.init = ⟨s.prev, s.cache, produced⟩ ∧
    produced ++ List.replicate s.run.toNat s.prev = seen

variable {seen : List Pixel}

/-- One more op, after which no run is pending: the decoder produces the pixels that were pending, and perhaps one more. -/
theorem State.Mirrored.emit_op {i : Instr} {added : List Pixel} (h : s.Mirrored seen) (hwf : i.wellFormed = true)
    (hlat : t.latched = s.latched) (hout : t.out = s.out ++ encode i) (hrun : t.run = 0)
    (happly : ∀ produced, Decoder.apply false ⟨s.prev, s.cache, produced⟩ i =
      ⟨t.prev, t.cache, produced ++ List.replicate s.run.toNat s.prev ++ added⟩) : t.Mirrored (seen ++ added) := by
  obtain ⟨ops, produced, hops, hbytes, hd, rfl⟩ := h
  refine ⟨ops ++ [i], produced ++ List.replicate s.run.toNat s.prev ++ added, ?_, ?_, ?_, ?_⟩
  · exact List.forall_mem_append.2 ⟨hops, List.forall_mem_singleton.2 hwf⟩
  · rw [hout, hbytes, hlat, List.flatMap_append, List.append_assoc, List.flatMap_singleton]
  · rw [List.foldl_append, hd, List.foldl_cons, List.foldl_nil, happly]
  · rw [hrun]
    exact List.append_nil _

/-- R144 to R149: with no run pending, the chosen op adds its pixel. -/
theorem State.Mirrored.chosen (h : s.Mirrored seen) (hrun : s.run = 0) (he : exec (chooseOp px s) s = .next t) :
    t.Mirrored (seen ++ [px]) := by
  obtain ⟨hlat, hout, hrun'⟩ : t.latched = s.latched ∧ t.out = s.out ++ encode (chooseOp px s) ∧ t.run = 0 := by
    rcases exec_chooseOp px s with ⟨-, e⟩ | ⟨-, e⟩ <;> cases e.symm.trans he <;> exact ⟨rfl, rfl, hrun⟩
  refine h.emit_op (chooseOp_wellFormed px s) hlat hout hrun' fun produced => ?_
  rw [apply_chooseOp he, hrun]
  exact congrArg (Decoder.mk t.prev t.cache <| · ++ [px]) (List.append_nil produced).symm

/-- R143, R192: a RUN of the pending repeats produces them. -/
theorem State.Mirrored.flush_run (h : s.Mirrored seen) (hrun : s.run ≠ 0) (hmax : s.run.toNat ≤ 62) :
    ((s.emit (encode (.run s.run.toNat))).setRun 0).Mirrored seen := by
  have hpos : s.run.toNat ≠ 0 := fun e => hrun (BitVec.eq_of_toNat_eq e)
  have hwf := (wellFormed_run_iff _).2 ⟨Nat.one_le_iff_ne_zero.2 hpos, hmax⟩
  rw [← List.append_nil seen]
  exact h.emit_op hwf rfl rfl rfl fun produced => by rw [List.append_nil]; rfl

theorem State.Mirrored.flushed (h : s.Mirrored seen) (hmax : s.run.toNat ≤ 61) : s.flushed.Mirrored seen := by
  unfold State.flushed
  split
  · exact h
  · next hrun => exact h.flush_run hrun (hmax.trans (Nat.le_succ 61))

/-- R140: a repeat is one more pending pixel. -/
theorem State.Mirrored.accumulate (h : s.Mirrored seen) (hmax : s.run.toNat ≤ 61) :
    s.accumulate.Mirrored (seen ++ [s.prev]) := by
  obtain ⟨ops, produced, hops, hbytes, hd, hseen⟩ := h
  refine ⟨ops, produced, hops, hbytes, hd, ?_⟩
  rw [State.accumulate_run, run_succ_toNat hmax, List.replicate_succ', ← List.append_assoc]
  exact congrArg (· ++ [s.prev]) hseen

/-- R151, R189 to R194: the op-selector step adds its pixel. -/
theorem opSelect_mirrored (hmax : s.run.toNat ≤ 61) (hs : s.Mirrored seen) (h : opSelect p s = .next t) :
    t.Mirrored (seen ++ [normalise s.cfgChannels p]) := by
  by_cases heq : normalise s.cfgChannels p = s.prev
  · have hadded := heq ▸ hs.accumulate hmax
    have hsucc := run_succ_toNat hmax
    rw [opSelect_of_repeat heq] at h
    rcases repeatStep_cases s with ⟨-, e⟩ | ⟨-, -, e⟩ <;> cases e.symm.trans h
    · refine hadded.flush_run (fun hzero => ?_) (hsucc.trans_le (Nat.succ_le_succ hmax))
      exact absurd (hsucc.symm.trans (congrArg BitVec.toNat hzero)) (Nat.succ_ne_zero _)
    · exact hadded
  · rw [opSelect_of_ne heq, encodeStep, flush_eq, andThen_next] at h
    exact (hs.flushed hmax).chosen s.flushed_run h

/-! ### The pixels of an image -/

/-- R112, R113: what each op-selector step keeps, with the pixels seen so far, holds of all pixels at the end of the image, where
no run is pending and the terminator follows. -/
theorem pixels_last {P : List Pixel → State → Prop}
    (hP : ∀ {seen : List Pixel} {p : Pixel} {s u : State}, s.Inv → P seen s → opSelect p s = .next u →
      P (seen ++ [normalise s.cfgChannels p]) u)
    (hadvance : ∀ {seen : List Pixel} {u : State}, P seen u → P seen u.advancePos)
    (ps : List Pixel) : ∀ {seen : List Pixel} {s : State}, s.Inv → s.phase = .running →
    s.pos.toNat + ps.length = s.total → P seen s → pixels ps s = .next t →
    ∃ u : State, P (seen ++ ps.map (normalise s.cfgChannels)) u ∧ u.latched = s.latched ∧ u.run = 0 ∧
      t = (u.emit Config.terminator).setPhase .done := by
  induction ps with
  | nil =>
    intro seen s hi hphase hlen
    exact absurd hlen (Nat.ne_of_lt (hi.running_before_end hphase))
  | cons p ps ih =>
    intro seen s hi hphase hlen hs h
    obtain ⟨u, hu, hpixel⟩ := pixel_running p s hphase
    obtain ⟨hphase', -, hlat, hpos⟩ := opSelect_frame hu
    have hinv := hi.pixel hpixel
    have hsucc := hi.pos_succ hphase
    have hkept := hadvance (hP hi hs hu)
    rw [List.length_cons] at hlen
    rw [pixels, hpixel, andThen_next] at h
    rcases finishPixel_cases u with ⟨hlast, e⟩ | ⟨hmore, e⟩ <;> rw [e] at hinv h
    · rw [hpos, State.total_congr hlat, hsucc] at hlast
      obtain rfl : ps = [] := List.eq_nil_of_length_eq_zero (by omega)
      have hrun := opSelect_run_of_last hlast hu
      cases h
      exact ⟨u.advancePos, hkept, hlat, hrun, rfl⟩
    · have hadvanced : u.advancePos.pos.toNat + ps.length = u.advancePos.total := by
        rw [State.advancePos_pos, hpos, hsucc, State.advancePos_total, State.total_congr hlat]
        omega
      obtain ⟨v, hv, hlat', hrun, ht⟩ := ih hinv (hphase'.trans hphase) hadvanced hkept h
      rw [State.advancePos_cfgChannels, State.cfgChannels_congr hlat, List.append_assoc] at hv
      exact ⟨v, hv, hlat'.trans hlat, hrun, ht⟩

/-- R108, R187: after START the encoder is where the decoder begins. -/
theorem start_valid_mirrored {a : StartArgs} (hphase : s.phase ≠ .running) (ha : validate a = .none) :
    (start a s).Mirrored [] := by
  rw [start_of_valid hphase ha]
  exact ⟨[], [], nofun, rfl, rfl, rfl⟩

/-- R133, R195: three bytes a pixel hold no alpha, and four are kept as they are. -/
theorem packBuffer_map_normalise (channels : Byte) (ps : List Pixel) :
    packBuffer channels (ps.map (normalise channels)) = packBuffer channels ps := by
  unfold packBuffer
  rw [List.flatMap_map]
  congr 1
  funext p
  by_cases h : channels = 3
  · rw [h]
    rfl
  · rw [normalise, if_neg h]

/-- R189 to R194: what is in `out` at the end of a valid encode. -/
theorem encodeRun_mirrored {w h : Word} {ch cs : Byte} {buf : List Byte} (hv : ValidImage w h ch cs buf)
    (hphase : s.phase ≠ .running) (hrun : encodeRun w h ch cs buf s = .next t) :
    ∃ u : State, u.Mirrored ((unpackBuffer buf ch).map (normalise ch)) ∧
      u.latched = ⟨w, h, ch, cs, BitVec.ofNat 64 buf.length⟩ ∧ u.run = 0 ∧ t.out = u.out ++ Config.terminator := by
  have ha := validate_of_validImage hv
  obtain ⟨-, -, -, hch, -, hlen⟩ := hv
  obtain ⟨hpixels, -⟩ := bufferUnpacksAndPacksBack ch buf _ hch hlen
  obtain ⟨hlat, -⟩ := start_valid_latched_run hphase ha
  obtain ⟨hrunning, hpos, -⟩ := start_valid_begins hphase ha
  have htotal := congrArg (fun a : StartArgs => a.width.toNat * a.height.toNat) hlat
  obtain ⟨u, hu, hlat', hzero, rfl⟩ := pixels_last (fun hi => opSelect_mirrored hi.run_le) id _
    (start_valid_inv hphase ha) hrunning
    (by rw [hpos, hpixels]; exact (Nat.zero_add _).trans htotal.symm)
    (start_valid_mirrored hphase ha) hrun
  rw [List.nil_append, show (start _ s).cfgChannels = ch from congrArg StartArgs.channels hlat] at hu
  exact ⟨u, hu, hlat'.trans hlat, hzero, rfl⟩

/-- Settles O47: at the end the decoder has produced every pixel of the buffer, and the pixels pack back to it. -/
theorem decodingTheStreamReturnsTheImage : Obligations.DecodingTheStreamReturnsTheImage := by
  intro w h ch cs buf s t hv hphase hrun
  obtain ⟨u, ⟨ops, produced, hwf, hout, hd, hseen⟩, hlat, hzero, ht⟩ := encodeRun_mirrored hv hphase hrun
  obtain ⟨-, -, -, hch, -, hlen⟩ := hv
  obtain ⟨hpixels, hpack, -⟩ := bufferUnpacksAndPacksBack ch buf _ hch hlen
  obtain rfl : produced = (unpackBuffer buf ch).map (normalise ch) := by
    rw [← hseen, hzero]
    exact (List.append_nil _).symm
  rw [ht, hout, hlat, decodeStream_ops hwf hd (by simpa using hpixels), packBuffer_map_normalise, hpack]

end Sys2Proof.Machine
end

section
/-! PROOF. The ops of the decoder contract (45_decoder_contract.md rules R189 to R194), and the decoder of R190, which stores
after every op. Where its cache differs from the encoder's, the encoder's slot holds a colour of another slot (`CACHE_INIT` in
the slot of `PIXEL_INIT`), and no pixel hits such a slot. So from START to the last pixel, every pixel that hits the encoder's
cache stands in the decoder's cache too, and that is all an INDEX needs. -/

namespace Sys2Proof.Machine

variable {s t : State} {p px : Pixel} {d : Decoder} {seen seen' : List Pixel}

/-! ### One chosen op -/

/-- R144, R145, R152: after the op chosen for `px`, `prev` is `px`, its slot holds `px`, and every other slot is kept. -/
theorem exec_chooseOp_prev_cacheAt (h : exec (chooseOp px s) s = .next t) :
    t.prev = px ∧ t.cacheAt (hash6 px) = px ∧ ∀ k, k ≠ hash6 px → t.cacheAt k = s.cacheAt k := by
  rcases exec_chooseOp px s with ⟨hhit, e⟩ | ⟨-, e⟩ <;> cases e.symm.trans h
  · exact ⟨rfl, hhit, fun _ _ => rfl⟩
  · have hslot := State.encodeMissed_cacheAt s px (chooseOp px s)
    exact ⟨rfl, (hslot _).trans (if_pos rfl), fun k hk => (hslot k).trans (if_neg hk)⟩

/-- The chosen op adds its bytes to `out` and writes neither the latches nor `run`. -/
theorem exec_chooseOp_out_latched_run (h : exec (chooseOp px s) s = .next t) :
    t.out = s.out ++ encode (chooseOp px s) ∧ t.latched = s.latched ∧ t.run = s.run := by
  rcases exec_chooseOp px s with ⟨-, e⟩ | ⟨-, e⟩ <;> cases e.symm.trans h <;> exact ⟨rfl, rfl, rfl⟩

/-- Settles O46: a decoder with the encoder's `prev` and cache reads the op as its pixel, and then has them again. -/
theorem decoderMirrorsEveryChosenOp : Obligations.DecoderMirrorsEveryChosenOp := by
  rintro px s t ⟨_, _, produced⟩ rfl rfl h
  exact ⟨pixelOf_chooseOp rfl id, (exec_chooseOp_prev_cacheAt h).1, apply_chooseOp h⟩

/-! ### The decoder that stores after every op -/

/-- `d` can read on beside the encoder `s`, which has taken the pixels `seen`. It has the encoder's previous pixel, has produced
all pixels but those of the pending run, and holds every pixel that hits the encoder's cache. Only the previous pixel can hit
its own slot, so storing it once more loses none of these (R190). -/
structure Decoder.Shadows (d : Decoder) (seen : List Pixel) (s : State) : Prop where
  prev : d.prev = s.prev
  pixels : d.pixels ++ List.replicate s.run.toNat s.prev = seen
  hit : ∀ q : Pixel, s.cacheAt (hash6 q) = q → d.cache[(hash6 q).val] = q
  prev_alone : ∀ q : Pixel, hash6 q = hash6 s.prev → s.cacheAt (hash6 q) = q → q = s.prev

/-- R190: the decoder may store the encoder's new `prev` whenever no other pixel hits that slot of the encoder's cache, and the
encoder has changed no other slot. -/
theorem Decoder.Shadows.store_prev (h : d.Shadows seen s) (n : Nat) (hrun : t.run = 0)
    (hpixels : d.pixels ++ List.replicate n t.prev = seen')
    (hkept : ∀ k, k ≠ hash6 t.prev → t.cacheAt k = s.cacheAt k)
    (halone : ∀ q : Pixel, hash6 q = hash6 t.prev → t.cacheAt (hash6 q) = q → q = t.prev) :
    ((d.store t.prev).produce n t.prev).Shadows seen' t where
  prev := rfl
  pixels := by
    rw [hrun]
    exact (List.append_nil _).trans hpixels
  hit q hq := by
    by_cases hslot : hash6 q = hash6 t.prev
    · rw [halone q hslot hq]
      exact Vector.getElem_set_self _
    · have hne : (hash6 t.prev).val ≠ (hash6 q).val := fun e => hslot (Fin.ext e.symm)
      exact (Vector.getElem_set_ne (hash6 _).isLt _ hne).trans (h.hit q ((hkept _ hslot).symm.trans hq))
  prev_alone := halone

/-- R190, R192: a RUN of the pending repeats produces them, and stores `prev` in its own slot. -/
theorem Decoder.Shadows.apply_run (h : d.Shadows seen s) (bytes : List Byte) :
    (d.apply true (.run s.run.toNat)).Shadows seen ((s.emit bytes).setRun 0) := by
  have e : d.apply true (.run s.run.toNat) = (d.store s.prev).produce s.run.toNat s.prev := by
    rw [← h.prev]
    rfl
  rw [e]
  exact h.store_prev (t := (s.emit bytes).setRun 0) _ rfl h.pixels (fun _ _ => rfl) h.prev_alone

/-- R142: a flush is such a RUN, or nothing. -/
theorem Decoder.Shadows.apply_flushOps (h : d.Shadows seen s) :
    (s.flushOps.foldl (Decoder.apply true) d).Shadows seen s.flushed := by
  unfold State.flushOps State.flushed
  split
  · exact h
  · exact h.apply_run _

/-- R190: with no run pending, the chosen op stands for its pixel, which then is in its slot on both sides. -/
theorem Decoder.Shadows.apply_chooseOp (h : d.Shadows seen s) (hrun : s.run = 0)
    (he : exec (chooseOp px s) s = .next t) : (d.apply true (chooseOp px s)).Shadows (seen ++ [px]) t := by
  obtain ⟨-, -, hrun'⟩ := exec_chooseOp_out_latched_run he
  obtain ⟨rfl, hslot, hkept⟩ := exec_chooseOp_prev_cacheAt he
  have e : d.apply true (chooseOp t.prev s) = (d.store t.prev).produce 1 t.prev := by
    rw [Decoder.apply, pixelOf_chooseOp h.prev (h.hit t.prev), pixelCount_chooseOp]
    rfl
  have hproduced : d.pixels = seen := by
    rw [← h.pixels, hrun]
    exact (List.append_nil _).symm
  rw [e]
  exact h.store_prev 1 (hrun'.trans hrun) (congrArg (· ++ [t.prev]) hproduced) hkept fun q hq hhit =>
    hhit.symm.trans ((congrArg t.cacheAt hq).trans hslot)

/-- R140: a repeat is one more pending pixel. -/
theorem Decoder.Shadows.accumulate (h : d.Shadows seen s) (hmax : s.run.toNat ≤ 61) :
    d.Shadows (seen ++ [s.prev]) s.accumulate where
  prev := h.prev
  pixels := by
    rw [State.accumulate_run, run_succ_toNat hmax, List.replicate_succ', ← List.append_assoc]
    exact congrArg (· ++ [s.prev]) h.pixels
  hit := h.hit
  prev_alone := h.prev_alone

/-- R151, R190: the ops of an op-selector step keep the decoder beside the encoder. -/
theorem opSelect_shadows (hmax : s.run.toNat ≤ 61) (h : opSelect p s = .next t) :
    ∃ ops : List Instr, (∀ i ∈ ops, i.wellFormed = true) ∧ t.out = s.out ++ ops.flatMap encode ∧
      ∀ {d : Decoder} {seen : List Pixel}, d.Shadows seen s →
        (ops.foldl (Decoder.apply true) d).Shadows (seen ++ [normalise s.cfgChannels p]) t := by
  by_cases heq : normalise s.cfgChannels p = s.prev
  · rw [opSelect_of_repeat heq] at h
    rw [heq]
    rcases repeatStep_cases s with ⟨-, e⟩ | ⟨-, -, e⟩ <;> cases e.symm.trans h
    · have hsucc := run_succ_toNat hmax
      have hwf := (wellFormed_run_iff (s.run + 1).toNat).2 (by omega)
      exact ⟨_, List.forall_mem_singleton.2 hwf, by simp, fun hd => (hd.accumulate hmax).apply_run _⟩
    · exact ⟨[], nofun, by simp, fun hd => hd.accumulate hmax⟩
  · rw [opSelect_of_ne heq, encodeStep, flush_eq, andThen_next] at h
    obtain ⟨hout, -, -⟩ := exec_chooseOp_out_latched_run h
    refine ⟨s.flushOps ++ [chooseOp (normalise s.cfgChannels p) s.flushed], ?_, ?_, fun hd => ?_⟩
    · exact List.forall_mem_append.2
        ⟨flushOps_wellFormed hmax, List.forall_mem_singleton.2 (chooseOp_wellFormed _ _)⟩
    · rw [hout, State.flushed_out, List.append_assoc, List.flatMap_append, List.flatMap_singleton]
    · rw [List.foldl_append]
      exact hd.apply_flushOps.apply_chooseOp s.flushed_run h

/-! ### The whole image -/

/-- The decoder of R190 that has read the ops since the header shadows the encoder. -/
def State.Shadowed (seen : List Pixel) (s : State) : Prop :=
  ∃ ops : List Instr, (∀ i ∈ ops, i.wellFormed = true) ∧ s.out = header s.latched ++ ops.flatMap encode ∧
    (ops.foldl (Decoder.apply true) Decoder.init).Shadows seen s

theorem State.Shadowed.opSelect (hs : s.Shadowed seen) (hmax : s.run.toNat ≤ 61) (h : opSelect p s = .next t) :
    t.Shadowed (seen ++ [normalise s.cfgChannels p]) := by
  obtain ⟨ops, hwf, hbytes, hd⟩ := hs
  obtain ⟨more, hmore, hout, hstep⟩ := opSelect_shadows hmax h
  obtain ⟨-, -, hlat, -⟩ := opSelect_frame h
  refine ⟨ops ++ more, List.forall_mem_append.2 ⟨hwf, hmore⟩, ?_, ?_⟩
  · rw [hout, hbytes, hlat, List.flatMap_append, List.append_assoc]
  · rw [List.foldl_append]
    exact hstep hd

theorem State.Shadowed.advancePos (hs : s.Shadowed seen) : s.advancePos.Shadowed seen := by
  obtain ⟨ops, hwf, hbytes, hprev, hpixels, hhit, halone⟩ := hs
  exact ⟨ops, hwf, hbytes, hprev, hpixels, hhit, halone⟩

/-- R108, R187, R190: both caches start as `CACHE_INIT`, which hits slot 0 alone, and the slot of `PIXEL_INIT` is 53. -/
theorem start_valid_shadowed {a : StartArgs} (hphase : s.phase ≠ .running) (ha : validate a = .none) :
    (start a s).Shadowed [] := by
  rw [start_of_valid hphase ha]
  refine ⟨[], nofun, rfl, rfl, rfl, fun _ hq => hq, fun q hslot hq => ?_⟩
  obtain rfl : Config.cacheInit = q := (emptyCache_get (hash6 q)).symm.trans hq
  exact absurd hslot (show hash6 Config.cacheInit ≠ hash6 Config.pixelInit by decide)

/-- Settles O48: at the end of the image the decoder of R190 has produced every pixel of the buffer. -/
theorem decoderThatStoresAfterEveryOpAgrees : Obligations.DecoderThatStoresAfterEveryOpAgrees := by
  intro w h ch cs buf s t hv hphase hrun
  have ha := validate_of_validImage hv
  obtain ⟨-, -, -, hch, -, hlen⟩ := hv
  obtain ⟨hcount, hpack, -⟩ := bufferUnpacksAndPacksBack ch buf _ hch hlen
  obtain ⟨hlat, -⟩ := start_valid_latched_run hphase ha
  obtain ⟨hrunning, hpos, -⟩ := start_valid_begins hphase ha
  have htotal := congrArg (fun a : StartArgs => a.width.toNat * a.height.toNat) hlat
  obtain ⟨u, ⟨ops, hwf, hout, hd⟩, hlat', hzero, rfl⟩ := pixels_last (P := State.Shadowed)
    (fun hi hs => hs.opSelect hi.run_le) State.Shadowed.advancePos _ (start_valid_inv hphase ha) hrunning
    (by rw [hpos, hcount]; exact (Nat.zero_add _).trans htotal.symm) (start_valid_shadowed hphase ha) hrun
  have hpixels : (ops.foldl (Decoder.apply true) Decoder.init).pixels = (unpackBuffer buf ch).map (normalise ch) := by
    have hseen := hd.pixels
    rw [hzero, List.nil_append, show (start _ s).cfgChannels = ch from congrArg StartArgs.channels hlat] at hseen
    exact (List.append_nil _).symm.trans hseen
  rw [State.setPhase_out, State.emit_out, hout, hlat'.trans hlat,
    decodeStream_ops hwf rfl (by rw [hpixels, List.length_map, hcount]), hpixels, packBuffer_map_normalise, hpack]

end Sys2Proof.Machine
end

section
/-! PROOF. RESET and the configuration ports (70_reset_and_hazards.md rules R225 and R231): RESET reaches one state from every
state, and the arbiter reads `cfg` only to hand it to a START that it takes. -/

namespace Sys2Proof.Machine

/-! ### RESET -/

/-- R225: what RESET leaves is the state of rule R34, whatever the state before; the later port values are not the block's. -/
theorem doReset_architectural (s : State) : (doReset s).architectural = State.reset := rfl

/-- Settles O24: the arbiter takes RESET first, and RESET reaches the reset state, with no byte left to take. -/
theorem resetSetsEveryElement : Obligations.ResetSetsEveryElement := by
  intro s hrst
  obtain ⟨htaken, -⟩ := oneCommandIsTakenPerStep s
  exact ⟨doReset s.beat, htaken hrst, rfl, doReset_architectural s.beat⟩

/-! ### The configuration ports -/

/-- A step reads the port values through the arbiter and the beat alone. -/
theorem step_congr {s t : State} (hcommand : arbitrate s = arbitrate t) (hbeat : s.beat = t.beat) : step s = step t := by
  rw [step, step, portStep, portStep, hcommand, hbeat]

/-- R212, R231: when RESET comes first or START is not accepted, the arbiter does not read `cfg`. -/
theorem arbitrate_cfg_congr {s : State} {p : Ports} {rest : List Ports} (c : StartArgs)
    (hno : p.rst = true ∨ p.start = false ∨ s.phase = .running) :
    arbitrate { s with inputs := p :: rest } = arbitrate { s with inputs := { p with cfg := c } :: rest } := by
  rcases hno with hrst | hlow | hrunning
  · simp [arbitrate, State.ports, hrst]
  · simp [arbitrate, State.ports, State.pixReady, State.busy, hlow]
  · simp [arbitrate, State.ports, State.startReady, State.pixReady, State.busy, hrunning]

/-- Settles O33: the command taken does not depend on `cfg`, and the beat drops this step's port values. -/
theorem configurationPortsAreReadOnlyAtStart : Obligations.ConfigurationPortsAreReadOnlyAtStart := by
  intro s p rest c hin hno
  have hs : s = { s with inputs := p :: rest } := by rw [← hin]
  exact (congrArg step hs).trans (step_congr (arbitrate_cfg_congr c hno) rfl)

end Sys2Proof.Machine
end
